-- ==== Sys2Proof/Word.lean ====
section
/-! DEFINITION. The two word widths of the hardware (R5: data width 8 bits, address width 16 bits). -/

namespace Sys2Proof

/-- A u8 of the spec (R8): a data byte, a register, a stack pointer, an operand byte. -/
abbrev Byte := BitVec 8

/-- A u16 of the spec (R8): an address, the program counter. -/
abbrev Addr := BitVec 16

end Sys2Proof
end

