-- ==== Sys2Proof/Machine/Bits.lean ====
section
/-! DEFINITION. The bit-field, extension and byte-order helpers of R8. -/

namespace Sys2Proof

/-- `lo8(w) = w[7:0]` (R8). -/
def lo8 (w : Addr) : Byte := w.extractLsb' 0 8

/-- `hi8(w) = w[15:8]` (R8). -/
def hi8 (w : Addr) : Byte := w.extractLsb' 8 8

/-- `hi ++ lo`, the u16 `hi*256 + lo` (R8). -/
def join (hi lo : Byte) : Addr := hi ++ lo

/-- `zext_16(b)`: the same number as a u16 (R8). -/
def zext16 (b : Byte) : Addr := b.setWidth 16

/-- `sext_16(b)`: b when `b[7] = 0`, and `b + 0xFF00` when `b[7] = 1` (R8). -/
def sext16 (b : Byte) : Addr := b.signExtend 16

end Sys2Proof
end

