-- ==== Sys2Proof/Config.lean ====
section
/-! DEFINITION. What is fixed for a run of one machine (R5) and the free values of the spec. -/

namespace Sys2Proof

/-- A positive integer, as R5 types DIVISOR_p, CLOCK_HZ and REFRESH_HZ. -/
abbrev Positive := { n : Nat // 0 < n }

/-- The parameters of R5 that an instruction or the pacing controller reads, as plain data, so that what is said of every
state is said of every configuration. IMAGE, LOAD_OFFSET and the INIT_ values are arguments of construction
(Machine/Boot.lean), the divisors stand beside their accumulators in State. -/
structure Config where
  /-- RECOGNIZED: the opcode bytes that select an instruction (R93, R96, U1; log entry 4). -/
  recognized : List Byte
  /-- BOUND: the register-page offsets that a peripheral has bound (R65). -/
  bound : List Byte
  /-- BRK_SKIP = 1 (R225, D7); the default is false, that is 0. -/
  brkSkip : Bool
  /-- WORD_READ_PAGE_WRAP (R67, D4); the default is false. -/
  wordReadPageWrap : Bool
  /-- EXTRA_COST (R325, D13): the opcode bytes that cost more than their bus accesses, and how much. -/
  extraCost : List (Byte × Nat)
  /-- CLOCK_HZ (R295). -/
  clockHz : Positive
  /-- REFRESH_HZ (R295). -/
  refreshHz : Positive
deriving DecidableEq, Repr

/-- FREE VALUE: the byte the peripheral answers to the n-th draw, where the environment's script gives no answer (R64:
"any byte"; U5). -/
opaque Config.freeDeviceByte : Nat → Byte

/-- FREE VALUE: A after a decimal ADC or SBC of an operand that is not valid BCD (R175; U3). -/
opaque Config.freeBcdResult : Nat → Byte

/-- FREE VALUE: C after a decimal ADC or SBC of an operand that is not valid BCD (R175; U3). -/
opaque Config.freeBcdCarry : Nat → Bool

/-- FREE VALUE: Z after a decimal ADC or SBC of an operand that is not valid BCD (R175; U3). -/
opaque Config.freeBcdZero : Nat → Bool

/-- FREE VALUE: S after a decimal ADC or SBC of an operand that is not valid BCD (R175; U3). -/
opaque Config.freeBcdSign : Nat → Bool

end Sys2Proof
end

