-- ==== Sys2Proof/Syntax/Operand.lean ====
section
/-! DEFINITION. The operand forms: the formats of R91 that carry an operand reference (R113), each with the operand
bytes it holds already assembled (R92). IMP, REL and IND are no operand references (R110, R116): the instructions of
those formats carry their bytes themselves. -/

namespace Sys2Proof

/-- An operand as the instruction stream gives it: the addressing mode of R91 with its operand bytes. -/
inductive Operand where
  /-- ACC (R117): the accumulator. -/
  | acc
  /-- IMM (R118): the byte itself. -/
  | imm (v : Byte)
  /-- ZP (R119): a zero-page address. -/
  | zp (z : Byte)
  /-- ZPX (R120): a zero-page base, indexed by X. -/
  | zpx (z : Byte)
  /-- ZPY (R121): a zero-page base, indexed by Y. -/
  | zpy (z : Byte)
  /-- ABS (R122): a 16-bit address. -/
  | abs (w : Addr)
  /-- ABX (R123): a 16-bit base, indexed by X. -/
  | abx (w : Addr)
  /-- ABY (R124): a 16-bit base, indexed by Y. -/
  | aby (w : Addr)
  /-- IZX (R125): the zero-page base of a pointer, indexed by X before the pointer is read. -/
  | izx (z : Byte)
  /-- IZY (R126): the zero-page place of a pointer, indexed by Y after the pointer is read. -/
  | izy (z : Byte)
deriving DecidableEq, Repr

end Sys2Proof
end

