-- ==== Sys2Proof/Syntax.lean ====
section
/-! DEFINITION. The instructions (R96, R97): one constructor per mnemonic of spec/opcode_table.json, two for JMP (R220 and
R221 are two rules), the row's format an `Operand` argument where the mnemonic has more than one. A row of the table is
one constructor with one operand form; WellFormed says which forms R96 gives a mnemonic. -/

namespace Sys2Proof

/-- An instruction with its operand bytes (R90 to R97). -/
inductive Instr where
  /-- LDA, load accumulator (R140). -/
  | lda (m : Operand)
  /-- LDX, load index X (R141). -/
  | ldx (m : Operand)
  /-- LDY, load index Y (R142). -/
  | ldy (m : Operand)
  /-- STA, store accumulator (R143). -/
  | sta (m : Operand)
  /-- STX, store index X (R144). -/
  | stx (m : Operand)
  /-- STY, store index Y (R145). -/
  | sty (m : Operand)
  /-- TAX, transfer A to X (R146). -/
  | tax
  /-- TAY, transfer A to Y (R147). -/
  | tay
  /-- TXA, transfer X to A (R148). -/
  | txa
  /-- TYA, transfer Y to A (R149). -/
  | tya
  /-- TSX, transfer SP to X (R150). -/
  | tsx
  /-- TXS, transfer X to SP (R151). -/
  | txs
  /-- PHA, push accumulator (R160). -/
  | pha
  /-- PHP, push the flags (R161). -/
  | php
  /-- PLA, pull accumulator (R162). -/
  | pla
  /-- PLP, pull the flags (R163). -/
  | plp
  /-- ADC, add with carry (R172). -/
  | adc (m : Operand)
  /-- SBC, subtract with borrow (R173). -/
  | sbc (m : Operand)
  /-- CMP, compare accumulator (R176). -/
  | cmp (m : Operand)
  /-- CPX, compare X (R177). -/
  | cpx (m : Operand)
  /-- CPY, compare Y (R178). -/
  | cpy (m : Operand)
  /-- INC, increment memory (R179). -/
  | inc (m : Operand)
  /-- INX, increment X (R180). -/
  | inx
  /-- INY, increment Y (R181). -/
  | iny
  /-- DEC, decrement memory (R182). -/
  | dec (m : Operand)
  /-- DEX, decrement X (R183). -/
  | dex
  /-- DEY, decrement Y (R184). -/
  | dey
  /-- AND (R200). -/
  | and (m : Operand)
  /-- ORA, inclusive or (R201). -/
  | ora (m : Operand)
  /-- EOR, exclusive or (R202). -/
  | eor (m : Operand)
  /-- BIT, bit test (R203). -/
  | bit (m : Operand)
  /-- ASL, arithmetic shift left (R204). -/
  | asl (m : Operand)
  /-- LSR, logical shift right (R205). -/
  | lsr (m : Operand)
  /-- ROL, rotate left through carry (R206). -/
  | rol (m : Operand)
  /-- ROR, rotate right through carry (R207). -/
  | ror (m : Operand)
  /-- JMP absolute (R220): the target. -/
  | jmpAbs (w : Addr)
  /-- JMP indirect (R221): the address of the pointer. -/
  | jmpInd (w : Addr)
  /-- JSR (R222): the target. -/
  | jsr (w : Addr)
  /-- RTS (R223). -/
  | rts
  /-- RTI (R224). -/
  | rti
  /-- BRK (R225). -/
  | brk
  /-- BCC, branch if carry clear (R227): the signed offset byte. -/
  | bcc (rel : Byte)
  /-- BCS, branch if carry set (R228). -/
  | bcs (rel : Byte)
  /-- BEQ, branch if zero set (R229). -/
  | beq (rel : Byte)
  /-- BNE, branch if zero clear (R230). -/
  | bne (rel : Byte)
  /-- BMI, branch if sign set (R231). -/
  | bmi (rel : Byte)
  /-- BPL, branch if sign clear (R232). -/
  | bpl (rel : Byte)
  /-- BVC, branch if overflow clear (R233). -/
  | bvc (rel : Byte)
  /-- BVS, branch if overflow set (R234). -/
  | bvs (rel : Byte)
  /-- CLC (R250). -/
  | clc
  /-- SEC (R251). -/
  | sec
  /-- CLI (R252). -/
  | cli
  /-- SEI (R253). -/
  | sei
  /-- CLD (R254). -/
  | cld
  /-- SED (R255). -/
  | sed
  /-- CLV (R256). -/
  | clv
  /-- NOP (R257). -/
  | nop
  /-- UNREC (R259): an unrecognized opcode byte, by default one of the 105 of R97. -/
  | unrec (op : Byte)
deriving DecidableEq, Repr

end Sys2Proof
end

