-- ==== Sys2Proof/WellFormed.lean ====
section
/-! DEFINITION. Which terms of `Instr` are instructions: the operand forms the table of R96 gives each mnemonic. Which bytes
select an instruction and which are UNREC's is RECOGNIZED's to say (R93; `Instr.selectedBy`, Decode.lean). -/

namespace Sys2Proof

/-- The forms of LDA, ADC, SBC, CMP, AND, ORA and EOR (R96). -/
def Operand.isAluForm : Operand → Bool
  | .imm _ | .zp _ | .zpx _ | .abs _ | .abx _ | .aby _ | .izx _ | .izy _ => true
  | .acc | .zpy _ => false

/-- The forms of STA (R96, R143: there is no immediate form). -/
def Operand.isStaForm : Operand → Bool
  | .zp _ | .zpx _ | .abs _ | .abx _ | .aby _ | .izx _ | .izy _ => true
  | .acc | .imm _ | .zpy _ => false

/-- The forms of LDX (R96, R141: the indexed forms use Y). -/
def Operand.isLdxForm : Operand → Bool
  | .imm _ | .zp _ | .zpy _ | .abs _ | .aby _ => true
  | .acc | .zpx _ | .abx _ | .izx _ | .izy _ => false

/-- The forms of LDY (R96, R142). -/
def Operand.isLdyForm : Operand → Bool
  | .imm _ | .zp _ | .zpx _ | .abs _ | .abx _ => true
  | .acc | .zpy _ | .aby _ | .izx _ | .izy _ => false

/-- The forms of STX (R96, R144). -/
def Operand.isStxForm : Operand → Bool
  | .zp _ | .zpy _ | .abs _ => true
  | .acc | .imm _ | .zpx _ | .abx _ | .aby _ | .izx _ | .izy _ => false

/-- The forms of STY (R96, R145). -/
def Operand.isStyForm : Operand → Bool
  | .zp _ | .zpx _ | .abs _ => true
  | .acc | .imm _ | .zpy _ | .abx _ | .aby _ | .izx _ | .izy _ => false

/-- The forms of CPX and CPY (R96, R177, R178). -/
def Operand.isCpxForm : Operand → Bool
  | .imm _ | .zp _ | .abs _ => true
  | .acc | .zpx _ | .zpy _ | .abx _ | .aby _ | .izx _ | .izy _ => false

/-- The forms of BIT (R96, R203). -/
def Operand.isBitForm : Operand → Bool
  | .zp _ | .abs _ => true
  | .acc | .imm _ | .zpx _ | .zpy _ | .abx _ | .aby _ | .izx _ | .izy _ => false

/-- The forms of INC and DEC (R96, R179, R182). -/
def Operand.isIncForm : Operand → Bool
  | .zp _ | .zpx _ | .abs _ | .abx _ => true
  | .acc | .imm _ | .zpy _ | .aby _ | .izx _ | .izy _ => false

/-- The forms of ASL, LSR, ROL and ROR (R96, R204 to R207). -/
def Operand.isShiftForm : Operand → Bool
  | .acc | .zp _ | .zpx _ | .abs _ | .abx _ => true
  | .imm _ | .zpy _ | .aby _ | .izx _ | .izy _ => false

/-- The term is an instruction: its operand form is one R96 gives its mnemonic. -/
def Instr.wellFormed : Instr → Bool
  | .lda m | .adc m | .sbc m | .cmp m | .and m | .ora m | .eor m => m.isAluForm
  | .ldx m => m.isLdxForm
  | .ldy m => m.isLdyForm
  | .sta m => m.isStaForm
  | .stx m => m.isStxForm
  | .sty m => m.isStyForm
  | .cpx m | .cpy m => m.isCpxForm
  | .bit m => m.isBitForm
  | .inc m | .dec m => m.isIncForm
  | .asl m | .lsr m | .rol m | .ror m => m.isShiftForm
  | .tax | .tay | .txa | .tya | .tsx | .txs | .pha | .php | .pla | .plp | .inx | .iny | .dex | .dey
  | .jmpAbs _ | .jmpInd _ | .jsr _ | .rts | .rti | .brk
  | .bcc _ | .bcs _ | .beq _ | .bne _ | .bmi _ | .bpl _ | .bvc _ | .bvs _
  | .clc | .sec | .cli | .sei | .cld | .sed | .clv | .nop | .unrec _ => true

end Sys2Proof
end

