-- ==== Sys2Proof/Decode.lean ====
section
/-! DEFINITION. The instruction decoder (R90 to R97) from the opcode matrix of R95, and after it the encoder, from the
table of R96: the two tables are two transcriptions, which the round trip of decode and encode compares. -/

namespace Sys2Proof

/-- The addressing modes of R91 that resolve to an operand reference. -/
inductive Mode where
  | acc | imm | zp | zpx | zpy | abs | abx | aby | izx | izy
deriving DecidableEq, Repr

/-- How many operand bytes a mode takes (R90, R91). -/
def Mode.operandBytes : Mode → Nat
  | .acc => 0
  | .imm | .zp | .zpx | .zpy | .izx | .izy => 1
  | .abs | .abx | .aby => 2

/-- Operand assembly (R92): `byte1`, or `byte2 ++ byte1`, the byte at the lower address being the low byte. -/
def Mode.operand (b1 b2 : Byte) : Mode → Operand
  | .acc => .acc
  | .imm => .imm b1
  | .zp => .zp b1
  | .zpx => .zpx b1
  | .zpy => .zpy b1
  | .abs => .abs (join b2 b1)
  | .abx => .abx (join b2 b1)
  | .aby => .aby (join b2 b1)
  | .izx => .izx b1
  | .izy => .izy b1

/-- A cell of the matrix of R95: mnemonic and format. -/
inductive Cell where
  /-- `-`, an unrecognized byte (R97). -/
  | none
  /-- A mnemonic with the format IMP. -/
  | imp (i : Instr)
  /-- A mnemonic with a mode that resolves to an operand reference. -/
  | mode (f : Mode) (make : Operand → Instr)
  /-- A branch, format REL. -/
  | rel (make : Byte → Instr)
  /-- JMP and JSR, format ABS: the operand is the target (R122). -/
  | abs16 (make : Addr → Instr)
  /-- JMP, format IND: the operand is the address of the pointer (R128). -/
  | ind16 (make : Addr → Instr)

/-- Row 0x of the matrix of R95. -/
def opcodeRow0 : List Cell :=
  [.imp .brk, .mode .izx .ora, .none, .none, .none, .mode .zp .ora, .mode .zp .asl, .none,
   .imp .php, .mode .imm .ora, .mode .acc .asl, .none, .none, .mode .abs .ora, .mode .abs .asl, .none]

/-- Row 1x of the matrix of R95. -/
def opcodeRow1 : List Cell :=
  [.rel .bpl, .mode .izy .ora, .none, .none, .none, .mode .zpx .ora, .mode .zpx .asl, .none,
   .imp .clc, .mode .aby .ora, .none, .none, .none, .mode .abx .ora, .mode .abx .asl, .none]

/-- Row 2x of the matrix of R95. -/
def opcodeRow2 : List Cell :=
  [.abs16 .jsr, .mode .izx .and, .none, .none, .mode .zp .bit, .mode .zp .and, .mode .zp .rol, .none,
   .imp .plp, .mode .imm .and, .mode .acc .rol, .none, .mode .abs .bit, .mode .abs .and, .mode .abs .rol, .none]

/-- Row 3x of the matrix of R95. -/
def opcodeRow3 : List Cell :=
  [.rel .bmi, .mode .izy .and, .none, .none, .none, .mode .zpx .and, .mode .zpx .rol, .none,
   .imp .sec, .mode .aby .and, .none, .none, .none, .mode .abx .and, .mode .abx .rol, .none]

/-- Row 4x of the matrix of R95. -/
def opcodeRow4 : List Cell :=
  [.imp .rti, .mode .izx .eor, .none, .none, .none, .mode .zp .eor, .mode .zp .lsr, .none,
   .imp .pha, .mode .imm .eor, .mode .acc .lsr, .none, .abs16 .jmpAbs, .mode .abs .eor, .mode .abs .lsr, .none]

/-- Row 5x of the matrix of R95. -/
def opcodeRow5 : List Cell :=
  [.rel .bvc, .mode .izy .eor, .none, .none, .none, .mode .zpx .eor, .mode .zpx .lsr, .none,
   .imp .cli, .mode .aby .eor, .none, .none, .none, .mode .abx .eor, .mode .abx .lsr, .none]

/-- Row 6x of the matrix of R95. -/
def opcodeRow6 : List Cell :=
  [.imp .rts, .mode .izx .adc, .none, .none, .none, .mode .zp .adc, .mode .zp .ror, .none,
   .imp .pla, .mode .imm .adc, .mode .acc .ror, .none, .ind16 .jmpInd, .mode .abs .adc, .mode .abs .ror, .none]

/-- Row 7x of the matrix of R95. -/
def opcodeRow7 : List Cell :=
  [.rel .bvs, .mode .izy .adc, .none, .none, .none, .mode .zpx .adc, .mode .zpx .ror, .none,
   .imp .sei, .mode .aby .adc, .none, .none, .none, .mode .abx .adc, .mode .abx .ror, .none]

/-- Row 8x of the matrix of R95. -/
def opcodeRow8 : List Cell :=
  [.none, .mode .izx .sta, .none, .none, .mode .zp .sty, .mode .zp .sta, .mode .zp .stx, .none,
   .imp .dey, .none, .imp .txa, .none, .mode .abs .sty, .mode .abs .sta, .mode .abs .stx, .none]

/-- Row 9x of the matrix of R95. -/
def opcodeRow9 : List Cell :=
  [.rel .bcc, .mode .izy .sta, .none, .none, .mode .zpx .sty, .mode .zpx .sta, .mode .zpy .stx, .none,
   .imp .tya, .mode .aby .sta, .imp .txs, .none, .none, .mode .abx .sta, .none, .none]

/-- Row Ax of the matrix of R95. -/
def opcodeRowA : List Cell :=
  [.mode .imm .ldy, .mode .izx .lda, .mode .imm .ldx, .none, .mode .zp .ldy, .mode .zp .lda, .mode .zp .ldx, .none,
   .imp .tay, .mode .imm .lda, .imp .tax, .none, .mode .abs .ldy, .mode .abs .lda, .mode .abs .ldx, .none]

/-- Row Bx of the matrix of R95. -/
def opcodeRowB : List Cell :=
  [.rel .bcs, .mode .izy .lda, .none, .none, .mode .zpx .ldy, .mode .zpx .lda, .mode .zpy .ldx, .none,
   .imp .clv, .mode .aby .lda, .imp .tsx, .none, .mode .abx .ldy, .mode .abx .lda, .mode .aby .ldx, .none]

/-- Row Cx of the matrix of R95. -/
def opcodeRowC : List Cell :=
  [.mode .imm .cpy, .mode .izx .cmp, .none, .none, .mode .zp .cpy, .mode .zp .cmp, .mode .zp .dec, .none,
   .imp .iny, .mode .imm .cmp, .imp .dex, .none, .mode .abs .cpy, .mode .abs .cmp, .mode .abs .dec, .none]

/-- Row Dx of the matrix of R95. -/
def opcodeRowD : List Cell :=
  [.rel .bne, .mode .izy .cmp, .none, .none, .none, .mode .zpx .cmp, .mode .zpx .dec, .none,
   .imp .cld, .mode .aby .cmp, .none, .none, .none, .mode .abx .cmp, .mode .abx .dec, .none]

/-- Row Ex of the matrix of R95. -/
def opcodeRowE : List Cell :=
  [.mode .imm .cpx, .mode .izx .sbc, .none, .none, .mode .zp .cpx, .mode .zp .sbc, .mode .zp .inc, .none,
   .imp .inx, .mode .imm .sbc, .imp .nop, .none, .mode .abs .cpx, .mode .abs .sbc, .mode .abs .inc, .none]

/-- Row Fx of the matrix of R95. -/
def opcodeRowF : List Cell :=
  [.rel .beq, .mode .izy .sbc, .none, .none, .none, .mode .zpx .sbc, .mode .zpx .inc, .none,
   .imp .sed, .mode .aby .sbc, .none, .none, .none, .mode .abx .sbc, .mode .abx .inc, .none]

/-- The opcode matrix of R95. -/
def opcodeMatrix : List (List Cell) :=
  [opcodeRow0, opcodeRow1, opcodeRow2, opcodeRow3, opcodeRow4, opcodeRow5, opcodeRow6, opcodeRow7,
   opcodeRow8, opcodeRow9, opcodeRowA, opcodeRowB, opcodeRowC, opcodeRowD, opcodeRowE, opcodeRowF]

/-- The cell of an opcode byte: row = high nibble, column = low nibble (R95). -/
def opcodeCell (op : Byte) : Cell := (opcodeMatrix.getD (op.toNat / 16) []).getD (op.toNat % 16) .none

/-- How many operand bytes follow the opcode byte of a cell (R90, R91; an unrecognized opcode has length 1, R97). -/
def Cell.operandBytes : Cell → Nat
  | .none | .imp _ => 0
  | .mode f _ => f.operandBytes
  | .rel _ => 1
  | .abs16 _ | .ind16 _ => 2

/-- The default of RECOGNIZED (R5): the 151 bytes of the table of R96, in rising order. -/
def recognizedBytes : List Byte :=
  [0x00, 0x01, 0x05, 0x06, 0x08, 0x09, 0x0A, 0x0D, 0x0E, 0x10, 0x11, 0x15, 0x16, 0x18, 0x19, 0x1D, 0x1E, 0x20, 0x21, 0x24] ++
  [0x25, 0x26, 0x28, 0x29, 0x2A, 0x2C, 0x2D, 0x2E, 0x30, 0x31, 0x35, 0x36, 0x38, 0x39, 0x3D, 0x3E, 0x40, 0x41, 0x45, 0x46] ++
  [0x48, 0x49, 0x4A, 0x4C, 0x4D, 0x4E, 0x50, 0x51, 0x55, 0x56, 0x58, 0x59, 0x5D, 0x5E, 0x60, 0x61, 0x65, 0x66, 0x68, 0x69] ++
  [0x6A, 0x6C, 0x6D, 0x6E, 0x70, 0x71, 0x75, 0x76, 0x78, 0x79, 0x7D, 0x7E, 0x81, 0x84, 0x85, 0x86, 0x88, 0x8A, 0x8C, 0x8D] ++
  [0x8E, 0x90, 0x91, 0x94, 0x95, 0x96, 0x98, 0x99, 0x9A, 0x9D, 0xA0, 0xA1, 0xA2, 0xA4, 0xA5, 0xA6, 0xA8, 0xA9, 0xAA, 0xAC] ++
  [0xAD, 0xAE, 0xB0, 0xB1, 0xB4, 0xB5, 0xB6, 0xB8, 0xB9, 0xBA, 0xBC, 0xBD, 0xBE, 0xC0, 0xC1, 0xC4, 0xC5, 0xC6, 0xC8, 0xC9] ++
  [0xCA, 0xCC, 0xCD, 0xCE, 0xD0, 0xD1, 0xD5, 0xD6, 0xD8, 0xD9, 0xDD, 0xDE, 0xE0, 0xE1, 0xE4, 0xE5, 0xE6, 0xE8, 0xE9, 0xEA] ++
  [0xEC, 0xED, 0xEE, 0xF0, 0xF1, 0xF5, 0xF6, 0xF8, 0xF9, 0xFD, 0xFE]

/-- The unrecognized bytes, as R97 lists them. -/
def unrecognizedBytes : List Byte :=
  [0x02, 0x03, 0x04, 0x07, 0x0B, 0x0C, 0x0F, 0x12, 0x13, 0x14, 0x17, 0x1A, 0x1B, 0x1C, 0x1F, 0x22, 0x23, 0x27, 0x2B, 0x2F, 0x32] ++
  [0x33, 0x34, 0x37, 0x3A, 0x3B, 0x3C, 0x3F, 0x42, 0x43, 0x44, 0x47, 0x4B, 0x4F, 0x52, 0x53, 0x54, 0x57, 0x5A, 0x5B, 0x5C, 0x5F] ++
  [0x62, 0x63, 0x64, 0x67, 0x6B, 0x6F, 0x72, 0x73, 0x74, 0x77, 0x7A, 0x7B, 0x7C, 0x7F, 0x80, 0x82, 0x83, 0x87, 0x89, 0x8B, 0x8F] ++
  [0x92, 0x93, 0x97, 0x9B, 0x9C, 0x9E, 0x9F, 0xA3, 0xA7, 0xAB, 0xAF, 0xB2, 0xB3, 0xB7, 0xBB, 0xBF, 0xC2, 0xC3, 0xC7, 0xCB, 0xCF] ++
  [0xD2, 0xD3, 0xD4, 0xD7, 0xDA, 0xDB, 0xDC, 0xDF, 0xE2, 0xE3, 0xE7, 0xEB, 0xEF, 0xF2, 0xF3, 0xF4, 0xF7, 0xFA, 0xFB, 0xFC, 0xFF]

/-- The cell by which an opcode byte decodes (R93): its cell of the matrix if RECOGNIZED holds the byte, else `-`. -/
def selectedCell (recognized : List Byte) (op : Byte) : Cell := if recognized.contains op then opcodeCell op else .none

/-- How many operand bytes follow an opcode byte: the opcode alone decides (R90, R94). -/
def operandBytes (recognized : List Byte) (op : Byte) : Nat := (selectedCell recognized op).operandBytes

/-- The instruction of an opcode byte and its operand bytes (R92, R93); a byte beyond the instruction's length is not
looked at. -/
def Cell.instr (op b1 b2 : Byte) : Cell → Instr
  | .none => .unrec op
  | .imp i => i
  | .mode f make => make (f.operand b1 b2)
  | .rel make => make b1
  | .abs16 make => make (join b2 b1)
  | .ind16 make => make (join b2 b1)

/-- Decoding is total (R93): the instruction whose bytes are `op`, `b1`, `b2`, as many of them as it has. A byte that
RECOGNIZED holds although R96 gives it no instruction comes out as UNREC, which `execUnrec` then refuses by name. -/
def decodeBytes (recognized : List Byte) (op b1 b2 : Byte) : Instr := (selectedCell recognized op).instr op b1 b2

/-- Why a list of bytes is no instruction. With RECOGNIZED at its default only a list that ends too early is rejected (R93, R97). -/
inductive DecodeError where
  /-- There is no opcode byte. -/
  | noOpcode
  /-- Operand bytes of this opcode are missing. -/
  | missingOperand (op : Byte)
  /-- RECOGNIZED holds this opcode byte, and R96 gives it no instruction (log entry 4). -/
  | noInstruction (op : Byte)
deriving DecidableEq, Repr

/-- The instruction at the head of a list of bytes, and the bytes after it, for a set of recognized bytes. -/
def decodeWith (recognized : List Byte) : List Byte → Except DecodeError (Instr × List Byte)
  | [] => .error .noOpcode
  | op :: rest =>
    if recognized.contains op && unrecognizedBytes.contains op then .error (.noInstruction op)
    else
      match operandBytes recognized op, rest with
      | 0, rest => .ok (decodeBytes recognized op 0 0, rest)
      | 1, b1 :: rest => .ok (decodeBytes recognized op b1 0, rest)
      | 2, b1 :: b2 :: rest => .ok (decodeBytes recognized op b1 b2, rest)
      | _, _ => .error (.missingOperand op)

/-- The decoder with RECOGNIZED at its default. -/
def decode (bytes : List Byte) : Except DecodeError (Instr × List Byte) := decodeWith recognizedBytes bytes

/-- Byte `k` of an instruction numbered as spec/opcode_table.json numbers it: bit 0 is the least significant bit of the
first byte; every bit from `nbits` up is 0. -/
def tableByte (nbits w k : Nat) : Byte := BitVec.ofNat 8 (w % 2 ^ nbits / 2 ^ (8 * k))

/-- The instruction the decoder reads from an instruction whose bits are `w`. -/
def decodeTableWord (nbits w : Nat) : Option Instr :=
  match decode [tableByte nbits w 0, tableByte nbits w 1, tableByte nbits w 2] with
  | .ok (i, _) => some i
  | .error _ => none

/-! The encoder. -/

/-- The entry of a row of the table of R96 for an operand's form; the columns are ACC IMM ZP ZPX ZPY ABS ABX ABY IZX IZY. -/
def Operand.column (row : List (Option Byte)) : Operand → Option Byte
  | .acc => row.getD 0 none
  | .imm _ => row.getD 1 none
  | .zp _ => row.getD 2 none
  | .zpx _ => row.getD 3 none
  | .zpy _ => row.getD 4 none
  | .abs _ => row.getD 5 none
  | .abx _ => row.getD 6 none
  | .aby _ => row.getD 7 none
  | .izx _ => row.getD 8 none
  | .izy _ => row.getD 9 none

/-- The opcode byte the table of R96 gives an instruction, and UNREC's byte; none where the table has no entry (an ill-formed term). -/
def Instr.opcode : Instr → Option Byte
  | .lda m => m.column [none, some 0xA9, some 0xA5, some 0xB5, none, some 0xAD, some 0xBD, some 0xB9, some 0xA1, some 0xB1]
  | .ldx m => m.column [none, some 0xA2, some 0xA6, none, some 0xB6, some 0xAE, none, some 0xBE, none, none]
  | .ldy m => m.column [none, some 0xA0, some 0xA4, some 0xB4, none, some 0xAC, some 0xBC, none, none, none]
  | .sta m => m.column [none, none, some 0x85, some 0x95, none, some 0x8D, some 0x9D, some 0x99, some 0x81, some 0x91]
  | .stx m => m.column [none, none, some 0x86, none, some 0x96, some 0x8E, none, none, none, none]
  | .sty m => m.column [none, none, some 0x84, some 0x94, none, some 0x8C, none, none, none, none]
  | .tax => some 0xAA
  | .tay => some 0xA8
  | .txa => some 0x8A
  | .tya => some 0x98
  | .tsx => some 0xBA
  | .txs => some 0x9A
  | .pha => some 0x48
  | .php => some 0x08
  | .pla => some 0x68
  | .plp => some 0x28
  | .adc m => m.column [none, some 0x69, some 0x65, some 0x75, none, some 0x6D, some 0x7D, some 0x79, some 0x61, some 0x71]
  | .sbc m => m.column [none, some 0xE9, some 0xE5, some 0xF5, none, some 0xED, some 0xFD, some 0xF9, some 0xE1, some 0xF1]
  | .cmp m => m.column [none, some 0xC9, some 0xC5, some 0xD5, none, some 0xCD, some 0xDD, some 0xD9, some 0xC1, some 0xD1]
  | .cpx m => m.column [none, some 0xE0, some 0xE4, none, none, some 0xEC, none, none, none, none]
  | .cpy m => m.column [none, some 0xC0, some 0xC4, none, none, some 0xCC, none, none, none, none]
  | .inc m => m.column [none, none, some 0xE6, some 0xF6, none, some 0xEE, some 0xFE, none, none, none]
  | .inx => some 0xE8
  | .iny => some 0xC8
  | .dec m => m.column [none, none, some 0xC6, some 0xD6, none, some 0xCE, some 0xDE, none, none, none]
  | .dex => some 0xCA
  | .dey => some 0x88
  | .and m => m.column [none, some 0x29, some 0x25, some 0x35, none, some 0x2D, some 0x3D, some 0x39, some 0x21, some 0x31]
  | .ora m => m.column [none, some 0x09, some 0x05, some 0x15, none, some 0x0D, some 0x1D, some 0x19, some 0x01, some 0x11]
  | .eor m => m.column [none, some 0x49, some 0x45, some 0x55, none, some 0x4D, some 0x5D, some 0x59, some 0x41, some 0x51]
  | .bit m => m.column [none, none, some 0x24, none, none, some 0x2C, none, none, none, none]
  | .asl m => m.column [some 0x0A, none, some 0x06, some 0x16, none, some 0x0E, some 0x1E, none, none, none]
  | .lsr m => m.column [some 0x4A, none, some 0x46, some 0x56, none, some 0x4E, some 0x5E, none, none, none]
  | .rol m => m.column [some 0x2A, none, some 0x26, some 0x36, none, some 0x2E, some 0x3E, none, none, none]
  | .ror m => m.column [some 0x6A, none, some 0x66, some 0x76, none, some 0x6E, some 0x7E, none, none, none]
  | .jmpAbs _ => some 0x4C
  | .jmpInd _ => some 0x6C
  | .jsr _ => some 0x20
  | .rts => some 0x60
  | .rti => some 0x40
  | .brk => some 0x00
  | .bcc _ => some 0x90
  | .bcs _ => some 0xB0
  | .beq _ => some 0xF0
  | .bne _ => some 0xD0
  | .bmi _ => some 0x30
  | .bpl _ => some 0x10
  | .bvc _ => some 0x50
  | .bvs _ => some 0x70
  | .clc => some 0x18
  | .sec => some 0x38
  | .cli => some 0x58
  | .sei => some 0x78
  | .cld => some 0xD8
  | .sed => some 0xF8
  | .clv => some 0xB8
  | .nop => some 0xEA
  | .unrec op => some op

/-- The term is UNREC. -/
def Instr.isUnrec : Instr → Bool
  | .unrec _ => true
  | .lda _ | .ldx _ | .ldy _ | .sta _ | .stx _ | .sty _ | .adc _ | .sbc _ | .cmp _ | .cpx _ | .cpy _ | .inc _ | .dec _
  | .and _ | .ora _ | .eor _ | .bit _ | .asl _ | .lsr _ | .rol _ | .ror _ | .jmpAbs _ | .jmpInd _ | .jsr _
  | .bcc _ | .bcs _ | .beq _ | .bne _ | .bmi _ | .bpl _ | .bvc _ | .bvs _
  | .tax | .tay | .txa | .tya | .tsx | .txs | .pha | .php | .pla | .plp | .inx | .iny | .dex | .dey | .rts | .rti | .brk
  | .clc | .sec | .cli | .sei | .cld | .sed | .clv | .nop => false

/-- A set of recognized bytes selects this instruction by its opcode byte (R93): it holds the byte, or, for UNREC, does not. -/
def Instr.selectedBy (recognized : List Byte) (i : Instr) : Bool := i.opcode.any fun op => recognized.contains op != i.isUnrec

/-- The operand bytes of a 16-bit value: low byte first (R92). -/
def addrBytes (w : Addr) : List Byte := [lo8 w, hi8 w]

/-- The operand bytes of a form (R91, R92). -/
def Operand.bytes : Operand → List Byte
  | .acc => []
  | .imm v => [v]
  | .zp z | .zpx z | .zpy z | .izx z | .izy z => [z]
  | .abs w | .abx w | .aby w => addrBytes w

/-- The bytes after the opcode byte. -/
def Instr.operandPart : Instr → List Byte
  | .lda m | .ldx m | .ldy m | .sta m | .stx m | .sty m | .adc m | .sbc m | .cmp m | .cpx m | .cpy m | .inc m | .dec m
  | .and m | .ora m | .eor m | .bit m | .asl m | .lsr m | .rol m | .ror m => m.bytes
  | .jmpAbs w | .jmpInd w | .jsr w => addrBytes w
  | .bcc r | .bcs r | .beq r | .bne r | .bmi r | .bpl r | .bvc r | .bvs r => [r]
  | .tax | .tay | .txa | .tya | .tsx | .txs | .pha | .php | .pla | .plp | .inx | .iny | .dex | .dey | .rts | .rti | .brk
  | .clc | .sec | .cli | .sei | .cld | .sed | .clv | .nop | .unrec _ => []

/-- The bytes of an instruction, in address order (R91); none for a term that is no instruction. -/
def Instr.encode (i : Instr) : Option (List Byte) := i.opcode.map (· :: i.operandPart)

end Sys2Proof
end

