-- ==== Sys2Proof/Machine/State.lean ====
section
/-! DEFINITION. The machine's state (10_state.md, INVENTORY.md "State"), its stops, and the state after construction. -/

namespace Sys2Proof.Machine

/-- The eight flags, each a stored bit (R24). -/
structure Flags where
  /-- Carry, bit 0 of the packed byte (R25). -/
  c : Bool
  /-- Zero, bit 1 (R26). -/
  z : Bool
  /-- Interrupt-disable, bit 2 (R27). -/
  i : Bool
  /-- Decimal, bit 3 (R28). -/
  d : Bool
  /-- Break, bit 4 (R29). -/
  b : Bool
  /-- Reserved, bit 5 (R30). -/
  r : Bool
  /-- Overflow, bit 6 (R33). -/
  v : Bool
  /-- Sign, bit 7 (R34). -/
  s : Bool
deriving DecidableEq, Repr

/-- The interrupt kinds (R270). -/
inductive IntKind where
  | reset | nmi | irq | brk
deriving DecidableEq, Repr

/-- What a peripheral may request: NMI, IRQ or BRK, never Reset (R272, D27). -/
inductive PeripheralRequest where
  | nmi | irq | brk
deriving DecidableEq, Repr

/-- What a bound read handler does (R64): the byte it answers and the `SignalInterrupt` calls it makes, in order. -/
structure DeviceReply where
  value : Byte
  calls : List PeripheralRequest
deriving DecidableEq, Repr

/-- The environment's script (R6, R64, R272, R294; log entry 6): what the peripherals and the host do at the points where
they may act, each list read from its head, one entry per point. Where a list has ended the environment makes no call,
and a bound read answers a free value of Config. -/
structure Environment where
  /-- One entry per bound register-page read. -/
  reads : List DeviceReply
  /-- One entry per bound register-page write: the calls the handler makes. -/
  writes : List (List PeripheralRequest)
  /-- One entry per Tick: the calls made in the peripheral-tick phase, in the order they are made (R285, D33). -/
  ticks : List (List PeripheralRequest)
  /-- One entry per Tick: the calls the host makes after it and before the next (host events between Ticks, R272 c, R294;
  log entry 10). -/
  host : List (List IntKind)
deriving DecidableEq, Repr

/-- A peripheral registered for ticking: its divisor (R5), whether its `tick` calls the shared helper or ignores the call
(R290), and its accumulator `acc_p` (R41). -/
structure Peripheral where
  divisor : Positive
  usesHelper : Bool
  acc : Nat
deriving DecidableEq, Repr

/-- A diagnostic event `Diag(op, at)` (R44, R260). -/
structure DiagEvent where
  op : Byte
  addr : Addr
deriving DecidableEq, Repr

/-- What a peripheral sees on the bus (R64): a bound read and the byte it answered, a bound write and the byte it took. -/
inductive DeviceEvent where
  | read (offset value : Byte)
  | write (offset value : Byte)
deriving DecidableEq, Repr

/-- MEM (R60) as the list of its cells that differ from what an unlisted address reads as, in one canonical form:
addresses below 65536 strictly rising, no entry equal to the unlisted value (`Memory.wf`, Machine/Ops.lean). -/
abbrev Memory := List Host.Cell

/-- Why a step faults: the hardware has no fault (R13, R283: "The hardware raises none"), so there is no reason. Safe: a
machine that stopped would be no behaviour of the hardware. -/
inductive Fault where
deriving DecidableEq, Repr

/-- Why a step, a meaning or a construction is refused. -/
inductive Refusal where
  /-- Raised by an arm of `exec` whose instruction has no meaning yet; no arm raises it. Safe. -/
  | notModelled (mnemonic : String)
  /-- Raised by a meaning that is given a term which is no instruction: an operand form that R96 does not give the mnemonic
  (a store to an immediate, R115: "cannot occur"). The decoder gives no such term, so no step raises it. Safe. -/
  | noSuchForm
  /-- Raised by UNREC of a byte that RECOGNIZED holds: that byte selects an instruction (R93), so UNREC is not its meaning. A
  step raises it only where RECOGNIZED is not at its default and holds a byte to which R96 gives no instruction: the spec
  gives such a byte no effect (R97, U1; log entry 4). Safe. -/
  | recognizedByte
  /-- Raised by construction when LOAD_OFFSET + len(IMAGE) > 65536 (R81, U9: "refuse (no machine is constructed)"). Safe. -/
  | imageDoesNotFit
deriving DecidableEq, Repr

/-- The state of the machine (10_state.md). The last five fields are the configuration and the model's own. -/
structure State where
  /-- The accumulator A (R20). -/
  a : Byte
  /-- Index X (R20). -/
  x : Byte
  /-- Index Y (R20). -/
  y : Byte
  /-- The stack pointer SP (R21). -/
  sp : Byte
  /-- The program counter PC (R22). -/
  pc : Addr
  /-- The flags (R24). -/
  flags : Flags
  /-- The pending-interrupt slot (R36); `none` is the value None. -/
  pending : Option IntKind
  /-- MEM (R60). -/
  mem : Memory
  /-- The per-Tick cycle counter (R40). -/
  cyc : Nat
  /-- The peripherals registered for ticking, in registration order, with their accumulators (R41). -/
  peripherals : List Peripheral
  /-- The pacing accumulator `pace_acc` (R42). -/
  paceAcc : Nat
  /-- The diagnostic output, oldest event first (R44). -/
  diag : List DiagEvent
  /-- The model's own: the bound register-page accesses made, oldest first (R64, U5; log entry 7). -/
  devEvents : List DeviceEvent
  /-- The model's own: what the divisor helper returned in the last tick phase to each peripheral (R291; log entry 11). -/
  crossed : List Bool
  /-- The model's own: the environment's script (R6; log entry 6). -/
  env : Environment
  /-- The model's own: how many free values have been drawn (log entry 8). -/
  draws : Nat
  /-- The configuration (R5), fixed for a run. -/
  cfg : Config
deriving DecidableEq, Repr

/-- The configuration of the reset state (log entry 5): the spec's defaults (R5) for RECOGNIZED, BRK_SKIP, WORD_READ_PAGE_WRAP
and EXTRA_COST; DESIGN CHOICE (unsafe) where R5 has no default: no offset bound ("all false gives a plain 64 KiB RAM"), and 1
for CLOCK_HZ and REFRESH_HZ, the least of the positive integers. -/
def resetConfig : Config where
  recognized := recognizedBytes
  bound := []
  brkSkip := false
  wordReadPageWrap := false
  extraCost := []
  clockHz := ⟨1, by decide⟩
  refreshHz := ⟨1, by decide⟩

/-- An environment that never acts (log entry 6). -/
def silentEnvironment : Environment := { reads := [], writes := [], ticks := [], host := [] }

/-- The machine right after construction and before its first Tick (R45), with an empty image (log entry 3). `pending`,
the memory, the counters and the diagnostic list are as R45 states them. DESIGN CHOICE (unsafe, log entry 1): A, X, Y, SP,
PC and the flags, which R45 leaves unspecified, are zero; `State.construct` takes them as arguments. -/
def State.reset : State where
  a := 0
  x := 0
  y := 0
  sp := 0
  pc := 0
  flags := { c := false, z := false, i := false, d := false, b := false, r := false, v := false, s := false }
  pending := some .reset
  mem := []
  cyc := 0
  peripherals := []
  paceAcc := 0
  diag := []
  devEvents := []
  crossed := []
  env := silentEnvironment
  draws := 0
  cfg := resetConfig

end Sys2Proof.Machine
end

