-- ==== Sys2Proof/Machine/Flags.lean ====
section
/-! DEFINITION. The flags byte, the central flag updater, and the binary and decimal sums with their flags. -/

namespace Sys2Proof.Machine

/-- `Pack()` (R31): `S*128 + V*64 + R*32 + B*16 + D*8 + I*4 + Z*2 + C`. -/
def Flags.pack (f : Flags) : Byte :=
  BitVec.ofNat 8 (f.s.toNat * 128 + f.v.toNat * 64 + f.r.toNat * 32 + f.b.toNat * 16 + f.d.toNat * 8 + f.i.toNat * 4
    + f.z.toNat * 2 + f.c.toNat)

/-- `Unpack(b)` (R32): bits 4 and 5 of the byte are ignored, B and R become 1. -/
def Flags.unpack (b : Byte) : Flags where
  c := b.getLsbD 0
  z := b.getLsbD 1
  i := b.getLsbD 2
  d := b.getLsbD 3
  b := true
  r := true
  v := b.getLsbD 6
  s := b.getLsbD 7

/-- What the updater does with Carry: `C` and `NC` are never both selected (R170). -/
inductive CarrySelect where
  /-- Neither is selected. -/
  | keep
  /-- `C`: the ninth bit of the result. -/
  | carry
  /-- `NC`: its complement. -/
  | notCarry
deriving DecidableEq, Repr

/-- `r8`, the truncated result of the updater (R170): `raw mod 256`. -/
def truncated (raw : Int) : Byte := BitVec.ofInt 8 raw

/-- `r9[8]` (R170): the ninth bit of `raw mod 512`, 1 iff raw > 255 or raw < 0 for raw in -256..511. -/
def ninthBit (raw : Int) : Bool := (BitVec.ofInt 9 raw).getLsbD 8

/-- The set `sel` of the updater (R170). -/
structure FlagSelect where
  carry : CarrySelect
  z : Bool
  s : Bool
deriving DecidableEq, Repr

/-- The set (Z, S). -/
def selectZS : FlagSelect := { carry := .keep, z := true, s := true }

/-- The set (C, Z, S). -/
def selectCZS : FlagSelect := { carry := .carry, z := true, s := true }

/-- The set (NC, Z, S). -/
def selectNCZS : FlagSelect := { carry := .notCarry, z := true, s := true }

/-- A result and the flags it leaves. -/
structure Outcome8 where
  value : Byte
  flags : Flags
deriving DecidableEq, Repr

/-- `UpdateFlags(raw, sel)` (R170): a flag that is not selected is not written; V, I, D, B and R never are. -/
def updateFlags (raw : Int) (sel : FlagSelect) (f : Flags) : Outcome8 where
  value := truncated raw
  flags :=
    { f with
      c := match sel.carry with
        | .keep => f.c
        | .carry => ninthBit raw
        | .notCarry => !ninthBit raw
      z := if sel.z then truncated raw == 0 else f.z
      s := if sel.s then (truncated raw).getLsbD 7 else f.s }

/-- `SetZS(v)` (R171): `UpdateFlags(v, (Z, S))`. -/
def setZS (v : Byte) (f : Flags) : Outcome8 := updateFlags v.toNat selectZS f

/-- The overflow formula of R172 and R173: `((opA ^ result) & (opB ^ result) & 0x80) != 0`. -/
def overflow (opA opB result : Byte) : Bool := ((opA ^^^ result) &&& (opB ^^^ result) &&& 0x80#8) != 0

/-- A result whose flags also have V assigned. -/
def Outcome8.withV (o : Outcome8) (v : Bool) : Outcome8 := { o with flags := { o.flags with v := v } }

/-- A set of flags with C assigned. -/
def Flags.withC (f : Flags) (c : Bool) : Flags := { f with c := c }

/-- The binary sum of ADC (R172, D = 0). -/
def addBinary (a m : Byte) (f : Flags) : Outcome8 :=
  let raw : Int := a.toNat + m.toNat + f.c.toNat
  (updateFlags raw selectCZS f).withV (overflow a m (truncated raw))

/-- The binary difference of SBC (R173, D = 0): the borrow in is `1 - C`, the overflow formula takes the complement of
the operand. -/
def subBinary (a m : Byte) (f : Flags) : Outcome8 :=
  let raw : Int := (a.toNat : Int) - m.toNat - (1 - f.c.toNat)
  (updateFlags raw selectNCZS f).withV (overflow a (~~~m) (truncated raw))

/-- `FromBCD(b)` (R174): `b[7:4] * 10 + b[3:0]`. -/
def fromBCD (b : Byte) : Nat := b.toNat / 16 * 10 + b.toNat % 16

/-- `ToBCD(n)` (R174): `(n / 10) * 16 + (n mod 10)`, for n in 0..99. -/
def toBCD (n : Nat) : Byte := BitVec.ofNat 8 (n / 10 * 16 + n % 10)

/-- Both nibbles are at most 9 (R174). -/
def validBCD (b : Byte) : Bool := b.toNat / 16 ≤ 9 && b.toNat % 16 ≤ 9

/-- The decimal sum of ADC for valid BCD operands (R172, D = 1): V is not written. -/
def addDecimal (a m : Byte) (f : Flags) : Outcome8 :=
  let t := fromBCD a + fromBCD m + f.c.toNat
  setZS (toBCD (t % 100)) (f.withC (100 ≤ t))

/-- The decimal difference of SBC for valid BCD operands (R173, D = 1): V is not written. -/
def subDecimal (a m : Byte) (f : Flags) : Outcome8 :=
  let t : Int := (fromBCD a : Int) - fromBCD m - (1 - f.c.toNat)
  setZS (toBCD (t % 100).toNat) (f.withC (0 ≤ t))

/-- What a decimal ADC or SBC leaves when an operand is not valid BCD (R175, U3): A, C, Z and S are the n-th free values, V
and the other flags are as they were. -/
def freeDecimal (n : Nat) (f : Flags) : Outcome8 where
  value := Config.freeBcdResult n
  flags := { f with c := Config.freeBcdCarry n, z := Config.freeBcdZero n, s := Config.freeBcdSign n }

/-- A compare of a register with an operand (R176 to R178): `UpdateFlags(r - m, (NC, Z, S))`, the result discarded. -/
def compareFlags (r m : Byte) (f : Flags) : Flags := (updateFlags ((r.toNat : Int) - m.toNat) selectNCZS f).flags

/-- The flags of BIT (R203): Z from `A & m`, S and V from bits 7 and 6 of m. -/
def bitTest (a m : Byte) (f : Flags) : Flags := { f with z := (a &&& m) == 0, s := m.getLsbD 7, v := m.getLsbD 6 }

/-- `SetZS((v + 1) mod 256)` (R179 to R181). -/
def increment (v : Byte) (f : Flags) : Outcome8 := setZS (v + 1) f

/-- `SetZS((v - 1) mod 256)` (R182 to R184). -/
def decrement (v : Byte) (f : Flags) : Outcome8 := setZS (v - 1) f

/-- ASL (R204): `UpdateFlags(v << 1, (C, Z, S))`. -/
def shiftLeft (v : Byte) (f : Flags) : Outcome8 := updateFlags (v.toNat * 2 : Nat) selectCZS f

/-- LSR (R205): `C <- v[0]`, then `SetZS(v >> 1)`. -/
def shiftRight (v : Byte) (f : Flags) : Outcome8 := setZS (v >>> 1) (f.withC (v.getLsbD 0))

/-- ROL (R206): `UpdateFlags((v << 1) | C, (C, Z, S))` with the C of before. -/
def rotateLeft (v : Byte) (f : Flags) : Outcome8 := updateFlags (v.toNat * 2 + f.c.toNat : Nat) selectCZS f

/-- ROR (R207): the old C enters bit 7, the old bit 0 becomes C, then Z and S. -/
def rotateRight (v : Byte) (f : Flags) : Outcome8 :=
  setZS (BitVec.ofNat 8 (f.c.toNat * 128 + v.toNat / 2)) (f.withC (v.getLsbD 0))

end Sys2Proof.Machine
end

