-- ==== Sys2Proof/Machine/Ops.lean ====
section
/-! DEFINITION. The named operations: memory, the interrupt request, the bus with its register page, the stack, and the
entry into an interrupt (Service) with the return from it. -/

namespace Sys2Proof.Machine

/-! Memory (R60). -/

/-- What an address that no entry lists reads as: memory is pre-zeroed (R45, R81). -/
def Memory.unlisted : Byte := 0

/-- The cell at an address. -/
def Memory.read : Memory → Nat → Byte
  | [], _ => Memory.unlisted
  | (k, v) :: rest, a => if k = a then v else Memory.read rest a

/-- Forgets a cell, which then reads as the unlisted value. -/
def Memory.erase : Memory → Nat → Memory
  | [], _ => []
  | (k, v) :: rest, a => if k = a then Memory.erase rest a else (k, v) :: Memory.erase rest a

/-- Sets a cell, in the place its address has in the rising order. -/
def Memory.insert : Memory → Nat → Byte → Memory
  | [], a, v => [(a, v)]
  | (k, w) :: rest, a, v =>
    if a < k then (a, v) :: (k, w) :: rest
    else if a = k then (a, v) :: rest
    else (k, w) :: Memory.insert rest a v

/-- Stores a byte, keeping the canonical form: the unlisted value removes the entry. -/
def Memory.write (m : Memory) (a : Nat) (v : Byte) : Memory :=
  if v = Memory.unlisted then m.erase a else m.insert a v

/-- Every entry of the list lies at `lo` or above, the addresses rise strictly and stay below 65536, and no entry is the
unlisted value. -/
def Memory.wfFrom : Nat → Memory → Bool
  | _, [] => true
  | lo, (k, v) :: rest => lo ≤ k && k < 65536 && v != Memory.unlisted && Memory.wfFrom (k + 1) rest

/-- The canonical form: equal memories are equal lists. -/
def Memory.wf (m : Memory) : Bool := Memory.wfFrom 0 m

/-- The bytes of a list copied into memory from an address upward, straight into the array (R81). -/
def Memory.load : Memory → Nat → List Byte → Memory
  | m, _, [] => m
  | m, a, v :: rest => Memory.load (m.write a v) (a + 1) rest

/-- The cell `MEM[addr]` (R60), whatever is bound there. -/
def State.peek (s : State) (addr : Addr) : Byte := s.mem.read addr.toNat

/-- `MEM[addr] <- v` (R60), whatever is bound there. -/
def State.poke (s : State) (addr : Addr) (v : Byte) : State := { s with mem := s.mem.write addr.toNat v }

/-! Small updates of the state. -/

/-- `cyc <- cyc + n` (R12). -/
def State.addCyc (s : State) (n : Nat) : State := { s with cyc := s.cyc + n }

/-- `A <- v`. -/
def State.setA (s : State) (v : Byte) : State := { s with a := v }

/-- `X <- v`. -/
def State.setX (s : State) (v : Byte) : State := { s with x := v }

/-- `Y <- v`. -/
def State.setY (s : State) (v : Byte) : State := { s with y := v }

/-- `SP <- v`. -/
def State.setSp (s : State) (v : Byte) : State := { s with sp := v }

/-- `PC <- target` (R9). -/
def State.setPc (s : State) (w : Addr) : State := { s with pc := w }

/-- Writes the flags. -/
def State.setFlags (s : State) (f : Flags) : State := { s with flags := f }

/-! The interrupt request (R271). -/

/-- The interrupt kind of a peripheral's request. -/
def PeripheralRequest.kind : PeripheralRequest → IntKind
  | .nmi => .nmi
  | .irq => .irq
  | .brk => .brk

/-- `SignalInterrupt(kind)` (R271): an IRQ is suppressed while I = 1 and dropped while any request is pending; NMI, BRK and
Reset overwrite the slot. -/
def signalInterrupt (kind : IntKind) (s : State) : State :=
  match kind with
  | .irq => if s.flags.i then s else if s.pending.isSome then s else { s with pending := some .irq }
  | .nmi => { s with pending := some .nmi }
  | .brk => { s with pending := some .brk }
  | .reset => { s with pending := some .reset }

/-- Several calls, in the order they are made (R274, R282). -/
def signalAll : List IntKind → State → State
  | [], s => s
  | k :: ks, s => signalAll ks (signalInterrupt k s)

/-- Several calls of peripherals, in the order they are made. -/
def signalRequests (rs : List PeripheralRequest) (s : State) : State := signalAll (rs.map PeripheralRequest.kind) s

/-! The bus (R62 to R66). -/

/-- The address is a register-page offset that a peripheral has bound: `hi8(addr) == 0xFD and BOUND(lo8(addr))` (R62). -/
def State.isBound (s : State) (addr : Addr) : Bool := hi8 addr == 0xFD && s.cfg.bound.contains (lo8 addr)

/-- A byte that was read, and the state after the read. -/
structure Got where
  value : Byte
  state : State
deriving DecidableEq, Repr

/-- `DevRead(o)` (R64): the peripheral's answer and its calls, from the script; a free byte where the script is silent. -/
def deviceRead (o : Byte) (s : State) : Got :=
  match s.env.reads with
  | r :: rest =>
    { value := r.value
      state := signalRequests r.calls
        { s with env := { s.env with reads := rest }, devEvents := s.devEvents ++ [.read o r.value] } }
  | [] =>
    { value := Config.freeDeviceByte s.draws
      state := { s with draws := s.draws + 1, devEvents := s.devEvents ++ [.read o (Config.freeDeviceByte s.draws)] } }

/-- `DevWrite(o, v)` (R64): the peripheral takes the byte and makes the calls of the script. -/
def deviceWrite (o v : Byte) (s : State) : State :=
  match s.env.writes with
  | calls :: rest =>
    signalRequests calls { s with env := { s.env with writes := rest }, devEvents := s.devEvents ++ [.write o v] }
  | [] => { s with devEvents := s.devEvents ++ [.write o v] }

/-- `MemRead(addr, 1)` (R62): every CPU read of any purpose. -/
def memRead (addr : Addr) (s : State) : Got :=
  if s.isBound addr then deviceRead (lo8 addr) s else { value := s.peek addr, state := s }

/-- `MemWrite(addr, 1, v)` (R63): every CPU write of any purpose. -/
def memWrite (addr : Addr) (v : Byte) (s : State) : State :=
  if s.isBound addr then deviceWrite (lo8 addr) v s else s.poke addr v

/-- The address of the second byte of a 16-bit read (R67): `addr + 1`, or, with WORD_READ_PAGE_WRAP, the next address of
the same page. -/
def secondAddr (pageWrap : Bool) (addr : Addr) : Addr :=
  if pageWrap then join (hi8 addr) (lo8 addr + 1) else addr + 1

/-- A 16-bit value that was read, and the state after the read. -/
structure GotWord where
  value : Addr
  state : State
deriving DecidableEq, Repr

/-- `MemRead(addr, 2)` (R67): the low byte first. -/
def memReadWord (addr : Addr) (s : State) : GotWord :=
  let lo := memRead addr s
  let hi := memRead (secondAddr s.cfg.wordReadPageWrap addr) lo.state
  { value := join hi.value lo.value, state := hi.state }

/-! The stack (R70 to R73). -/

/-- `0x0100 + SP` (R21). -/
def stackAddr (sp : Byte) : Addr := 0x0100 + zext16 sp

/-- `Push8(v)` (R70). -/
def push8 (v : Byte) (s : State) : State :=
  let t := memWrite (stackAddr s.sp) v s
  t.setSp (t.sp - 1)

/-- `Pull8()` (R71). -/
def pull8 (s : State) : Got :=
  let t := s.setSp (s.sp + 1)
  memRead (stackAddr t.sp) t

/-- `Push16(w)` (R72): the high byte first. -/
def push16 (w : Addr) (s : State) : State := push8 (lo8 w) (push8 (hi8 w) s)

/-- `Pull16()` (R73): the low byte first. -/
def pull16 (s : State) : GotWord :=
  let lo := pull8 s
  let hi := pull8 lo.state
  { value := join hi.value lo.value, state := hi.state }

/-! Interrupt entry and return. -/

/-- The vector table (R276). -/
def vector : IntKind → Addr
  | .reset => 0xFFFC
  | .nmi => 0xFFFA
  | .irq => 0xFFFE
  | .brk => 0xFFFE

/-- The frame of an entry (R275, R278): PC, high byte first, then the flags as they are before the entry; none for Reset. -/
def pushFrame (k : IntKind) (s : State) : State :=
  match k with
  | .reset => s
  | .nmi | .irq | .brk => push8 s.flags.pack (push16 s.pc s)

/-- The flags of an entry (R275): I <- 1; B <- 1 for BRK only; Z <- 1 for Reset only (R277). -/
def Flags.enter (k : IntKind) (f : Flags) : Flags :=
  match k with
  | .reset => { f with i := true, z := true }
  | .nmi | .irq => { f with i := true }
  | .brk => { f with i := true, b := true }

/-- `Service()` with `k` in the pending slot (R275, R277): the frame is pushed, the flags are set, the fixed 3 cycles are
added, PC is loaded from the vector, the slot is cleared. -/
def service (k : IntKind) (s : State) : State :=
  let t := pushFrame k s
  let u := (t.setFlags (t.flags.enter k)).addCyc 3
  let w := memReadWord (vector k) u
  { w.state.setPc w.value with pending := none }

/-- The service at the start of a Tick, if a request is pending (R285). -/
def servicePending (s : State) : State :=
  match s.pending with
  | none => s
  | some k => service k s

/-- The return from an interrupt (R224): the flags are pulled, with B and R forced to 1, then PC; I is what the pulled byte
says. -/
def returnFromInterrupt (s : State) : State :=
  let b := pull8 s
  let w := pull16 (b.state.setFlags (Flags.unpack b.value))
  (w.state.addCyc 3).setPc w.value

end Sys2Proof.Machine
end

