-- ==== Sys2Proof/Machine/Operands.lean ====
section
/-! DEFINITION. The addressing-mode resolver (40_addressing_modes.md). The operand bytes have been fetched with the opcode
(Machine/Fetch.lean; log entry 9): what is left of a mode here is its address arithmetic and its pointer reads. -/

namespace Sys2Proof.Machine

/-- An operand reference (R113). -/
inductive Ref where
  /-- The accumulator. -/
  | acc
  /-- A byte already fetched. -/
  | imm (v : Byte)
  /-- An effective address. -/
  | mem (addr : Addr)
deriving DecidableEq, Repr

/-- An operand reference and the state after resolving it. -/
structure Resolved where
  ref : Ref
  state : State
deriving DecidableEq, Repr

/-- The resolver (R110, R117 to R126). -/
def resolve (m : Operand) (s : State) : Resolved :=
  match m with
  | .acc => { ref := .acc, state := s }
  | .imm v => { ref := .imm v, state := s }
  | .zp z => { ref := .mem (zext16 z), state := s }
  | .zpx z => { ref := .mem (zext16 (z + s.x)), state := s }
  | .zpy z => { ref := .mem (zext16 (z + s.y)), state := s }
  | .abs w => { ref := .mem w, state := s }
  | .abx w => { ref := .mem (w + zext16 s.x), state := s }
  | .aby w => { ref := .mem (w + zext16 s.y), state := s }
  | .izx z =>
    let p := memReadWord (zext16 (z + s.x)) s
    { ref := .mem p.value, state := p.state.addCyc 2 }
  | .izy z =>
    let p := memReadWord (zext16 z) s
    { ref := .mem (p.value + zext16 p.state.y), state := p.state.addCyc 2 }

/-- `ReadRef(ref)` (R114). -/
def readRef (ref : Ref) (s : State) : Got :=
  match ref with
  | .acc => { value := s.a, state := s }
  | .imm v => { value := v, state := s }
  | .mem addr => memRead addr (s.addCyc 1)

/-- `WriteRef(ref, v)` (R115). An immediate is never written ("cannot occur"): no well-formed instruction reaches that case,
which leaves the state as it is. -/
def writeRef (ref : Ref) (v : Byte) (s : State) : State :=
  match ref with
  | .acc => s.setA v
  | .imm _ => s
  | .mem addr => memWrite addr v (s.addCyc 1)

/-- `ReadRef(resolve(mode))`: the operand of a load, an arithmetic, a logic or a compare instruction. -/
def readOperand (m : Operand) (s : State) : Got :=
  let r := resolve m s
  readRef r.ref r.state

/-- `WriteRef(resolve(mode), v)`: a store, which does not read its target (R77, D20). -/
def writeOperand (m : Operand) (v : Byte) (s : State) : State :=
  let r := resolve m s
  writeRef r.ref v r.state

/-- A read-modify-write (R77): one read, the flags of the operation, one write to the same reference. -/
def modifyOperand (op : Byte → Flags → Outcome8) (m : Operand) (s : State) : State :=
  let r := resolve m s
  let g := readRef r.ref r.state
  let o := op g.value g.state.flags
  writeRef r.ref o.value (g.state.setFlags o.flags)

/-- The outcome of a meaning whose operand form is checked first: a form that R96 does not give the mnemonic is refused. -/
def whenForm (ok : Bool) (s : State) : Host.Outcome State Fault Refusal :=
  if ok then .next s else .refused .noSuchForm

end Sys2Proof.Machine
end

