-- ==== Sys2Proof/Machine/Transfer.lean ====
section
/-! DEFINITION. Loads, stores and register transfers (41_load_store_transfer.md). -/

namespace Sys2Proof.Machine

/-- A and the flags take a result. -/
def State.takeA (s : State) (o : Outcome8) : State := (s.setFlags o.flags).setA o.value

/-- X and the flags take a result. -/
def State.takeX (s : State) (o : Outcome8) : State := (s.setFlags o.flags).setX o.value

/-- Y and the flags take a result. -/
def State.takeY (s : State) (o : Outcome8) : State := (s.setFlags o.flags).setY o.value

/-- `A <- SetZS(v)`. -/
def State.loadA (s : State) (v : Byte) : State := s.takeA (setZS v s.flags)

/-- `X <- SetZS(v)`. -/
def State.loadX (s : State) (v : Byte) : State := s.takeX (setZS v s.flags)

/-- `Y <- SetZS(v)`. -/
def State.loadY (s : State) (v : Byte) : State := s.takeY (setZS v s.flags)

/-- LDA (R140): `A <- SetZS(ReadRef(ref))`. -/
def execLda (m : Operand) (s : State) : Host.Outcome State Fault Refusal :=
  let g := readOperand m s
  whenForm m.isAluForm (g.state.loadA g.value)

/-- LDX (R141). -/
def execLdx (m : Operand) (s : State) : Host.Outcome State Fault Refusal :=
  let g := readOperand m s
  whenForm m.isLdxForm (g.state.loadX g.value)

/-- LDY (R142). -/
def execLdy (m : Operand) (s : State) : Host.Outcome State Fault Refusal :=
  let g := readOperand m s
  whenForm m.isLdyForm (g.state.loadY g.value)

/-- STA (R143): one bus write, no read of the target, no flag. -/
def execSta (m : Operand) (s : State) : Host.Outcome State Fault Refusal :=
  whenForm m.isStaForm (writeOperand m s.a s)

/-- STX (R144). -/
def execStx (m : Operand) (s : State) : Host.Outcome State Fault Refusal :=
  whenForm m.isStxForm (writeOperand m s.x s)

/-- STY (R145). -/
def execSty (m : Operand) (s : State) : Host.Outcome State Fault Refusal :=
  whenForm m.isStyForm (writeOperand m s.y s)

/-- TAX (R146). -/
def execTax (s : State) : Host.Outcome State Fault Refusal := .next (s.loadX s.a)

/-- TAY (R147). -/
def execTay (s : State) : Host.Outcome State Fault Refusal := .next (s.loadY s.a)

/-- TXA (R148). -/
def execTxa (s : State) : Host.Outcome State Fault Refusal := .next (s.loadA s.x)

/-- TYA (R149). -/
def execTya (s : State) : Host.Outcome State Fault Refusal := .next (s.loadA s.y)

/-- TSX (R150). -/
def execTsx (s : State) : Host.Outcome State Fault Refusal := .next (s.loadX s.sp)

/-- TXS (R151): the one transfer that writes no flag. -/
def execTxs (s : State) : Host.Outcome State Fault Refusal := .next (s.setSp s.x)

end Sys2Proof.Machine
end

