-- ==== Sys2Proof/Machine/Arith.lean ====
section
/-! DEFINITION. Add, subtract, compare, increment and decrement (43_arithmetic.md). -/

namespace Sys2Proof.Machine

/-- A decimal result where A and the operand are both valid BCD, else the next free values (R175). -/
def State.takeDecimal (s : State) (m : Byte) (valid : Outcome8) : State :=
  if validBCD s.a && validBCD m then s.takeA valid
  else { s.takeA (freeDecimal s.draws s.flags) with draws := s.draws + 1 }

/-- The sum of ADC with the operand's value (R172): D chooses. -/
def addWithCarry (m : Byte) (s : State) : State :=
  if s.flags.d then s.takeDecimal m (addDecimal s.a m s.flags) else s.takeA (addBinary s.a m s.flags)

/-- The difference of SBC with the operand's value (R173): D chooses. -/
def subWithBorrow (m : Byte) (s : State) : State :=
  if s.flags.d then s.takeDecimal m (subDecimal s.a m s.flags) else s.takeA (subBinary s.a m s.flags)

/-- ADC (R172). -/
def execAdc (m : Operand) (s : State) : Host.Outcome State Fault Refusal :=
  let g := readOperand m s
  whenForm m.isAluForm (addWithCarry g.value g.state)

/-- SBC (R173). -/
def execSbc (m : Operand) (s : State) : Host.Outcome State Fault Refusal :=
  let g := readOperand m s
  whenForm m.isAluForm (subWithBorrow g.value g.state)

/-- CMP (R176): A is unchanged, D is ignored. -/
def execCmp (m : Operand) (s : State) : Host.Outcome State Fault Refusal :=
  let g := readOperand m s
  whenForm m.isAluForm (g.state.setFlags (compareFlags g.state.a g.value g.state.flags))

/-- CPX (R177). -/
def execCpx (m : Operand) (s : State) : Host.Outcome State Fault Refusal :=
  let g := readOperand m s
  whenForm m.isCpxForm (g.state.setFlags (compareFlags g.state.x g.value g.state.flags))

/-- CPY (R178). -/
def execCpy (m : Operand) (s : State) : Host.Outcome State Fault Refusal :=
  let g := readOperand m s
  whenForm m.isCpxForm (g.state.setFlags (compareFlags g.state.y g.value g.state.flags))

/-- INC (R179). -/
def execInc (m : Operand) (s : State) : Host.Outcome State Fault Refusal :=
  whenForm m.isIncForm (modifyOperand increment m s)

/-- INX (R180). -/
def execInx (s : State) : Host.Outcome State Fault Refusal := .next (s.takeX (increment s.x s.flags))

/-- INY (R181). -/
def execIny (s : State) : Host.Outcome State Fault Refusal := .next (s.takeY (increment s.y s.flags))

/-- DEC (R182). -/
def execDec (m : Operand) (s : State) : Host.Outcome State Fault Refusal :=
  whenForm m.isIncForm (modifyOperand decrement m s)

/-- DEX (R183). -/
def execDex (s : State) : Host.Outcome State Fault Refusal := .next (s.takeX (decrement s.x s.flags))

/-- DEY (R184). -/
def execDey (s : State) : Host.Outcome State Fault Refusal := .next (s.takeY (decrement s.y s.flags))

end Sys2Proof.Machine
end

