-- ==== Sys2Proof/Machine/Control.lean ====
section
/-! DEFINITION. Jumps, subroutines, returns, BRK and branches (45_control_flow.md). When a meaning runs, PC is past the
instruction's bytes (R22). -/

namespace Sys2Proof.Machine

/-- JMP absolute (R220). -/
def execJmpAbs (w : Addr) (s : State) : Host.Outcome State Fault Refusal := .next (s.setPc w)

/-- JMP indirect (R221, mode IND R128). -/
def execJmpInd (w : Addr) (s : State) : Host.Outcome State Fault Refusal :=
  let p := memReadWord w s
  .next ((p.state.addCyc 2).setPc p.value)

/-- JSR (R222): the address of its own last byte is pushed. -/
def execJsr (w : Addr) (s : State) : Host.Outcome State Fault Refusal :=
  .next (((push16 (s.pc - 1) s).addCyc 2).setPc w)

/-- RTS (R223). -/
def execRts (s : State) : Host.Outcome State Fault Refusal :=
  let p := pull16 s
  .next ((p.state.addCyc 2).setPc (p.value + 1))

/-- RTI (R224). -/
def execRti (s : State) : Host.Outcome State Fault Refusal := .next (returnFromInterrupt s)

/-- BRK (R225): it latches the request and skips BRK_SKIP bytes; the entry is the next Tick's. -/
def execBrk (s : State) : Host.Outcome State Fault Refusal :=
  let t := signalInterrupt .brk s
  .next (t.setPc (t.pc + (if t.cfg.brkSkip then 1 else 0)))

/-- The common branch rule (R226, mode REL R127). -/
def branch (taken : Bool) (rel : Byte) (s : State) : State :=
  if taken then (s.addCyc 1).setPc (s.pc + sext16 rel) else s

/-- BCC (R227). -/
def execBcc (rel : Byte) (s : State) : Host.Outcome State Fault Refusal := .next (branch (!s.flags.c) rel s)

/-- BCS (R228). -/
def execBcs (rel : Byte) (s : State) : Host.Outcome State Fault Refusal := .next (branch s.flags.c rel s)

/-- BEQ (R229). -/
def execBeq (rel : Byte) (s : State) : Host.Outcome State Fault Refusal := .next (branch s.flags.z rel s)

/-- BNE (R230). -/
def execBne (rel : Byte) (s : State) : Host.Outcome State Fault Refusal := .next (branch (!s.flags.z) rel s)

/-- BMI (R231). -/
def execBmi (rel : Byte) (s : State) : Host.Outcome State Fault Refusal := .next (branch s.flags.s rel s)

/-- BPL (R232). -/
def execBpl (rel : Byte) (s : State) : Host.Outcome State Fault Refusal := .next (branch (!s.flags.s) rel s)

/-- BVC (R233). -/
def execBvc (rel : Byte) (s : State) : Host.Outcome State Fault Refusal := .next (branch (!s.flags.v) rel s)

/-- BVS (R234). -/
def execBvs (rel : Byte) (s : State) : Host.Outcome State Fault Refusal := .next (branch s.flags.v rel s)

end Sys2Proof.Machine
end

