-- ==== Sys2Proof/Machine/Logic.lean ====
section
/-! DEFINITION. Bitwise logic, bit test, shifts and rotates (44_logic_shift.md). -/

namespace Sys2Proof.Machine

/-- AND (R200). -/
def execAnd (m : Operand) (s : State) : Host.Outcome State Fault Refusal :=
  let g := readOperand m s
  whenForm m.isAluForm (g.state.loadA (g.state.a &&& g.value))

/-- ORA (R201). -/
def execOra (m : Operand) (s : State) : Host.Outcome State Fault Refusal :=
  let g := readOperand m s
  whenForm m.isAluForm (g.state.loadA (g.state.a ||| g.value))

/-- EOR (R202). -/
def execEor (m : Operand) (s : State) : Host.Outcome State Fault Refusal :=
  let g := readOperand m s
  whenForm m.isAluForm (g.state.loadA (g.state.a ^^^ g.value))

/-- BIT (R203). -/
def execBit (m : Operand) (s : State) : Host.Outcome State Fault Refusal :=
  let g := readOperand m s
  whenForm m.isBitForm (g.state.setFlags (bitTest g.state.a g.value g.state.flags))

/-- ASL (R204). -/
def execAsl (m : Operand) (s : State) : Host.Outcome State Fault Refusal :=
  whenForm m.isShiftForm (modifyOperand shiftLeft m s)

/-- LSR (R205). -/
def execLsr (m : Operand) (s : State) : Host.Outcome State Fault Refusal :=
  whenForm m.isShiftForm (modifyOperand shiftRight m s)

/-- ROL (R206). -/
def execRol (m : Operand) (s : State) : Host.Outcome State Fault Refusal :=
  whenForm m.isShiftForm (modifyOperand rotateLeft m s)

/-- ROR (R207). -/
def execRor (m : Operand) (s : State) : Host.Outcome State Fault Refusal :=
  whenForm m.isShiftForm (modifyOperand rotateRight m s)

end Sys2Proof.Machine
end

