-- ==== Sys2Proof/Machine/Stack.lean ====
section
/-! DEFINITION. The stack instructions (42_stack.md). -/

namespace Sys2Proof.Machine

/-- PHA (R160). -/
def execPha (s : State) : Host.Outcome State Fault Refusal := .next ((push8 s.a s).addCyc 1)

/-- PHP (R161): the stored B and R are pushed as they are. -/
def execPhp (s : State) : Host.Outcome State Fault Refusal := .next ((push8 s.flags.pack s).addCyc 1)

/-- PLA (R162). -/
def execPla (s : State) : Host.Outcome State Fault Refusal :=
  let g := pull8 s
  .next ((g.state.addCyc 1).loadA g.value)

/-- PLP (R163): all eight flags, B and R to 1. -/
def execPlp (s : State) : Host.Outcome State Fault Refusal :=
  let g := pull8 s
  .next ((g.state.addCyc 1).setFlags (Flags.unpack g.value))

end Sys2Proof.Machine
end

