-- ==== Sys2Proof/Machine/System.lean ====
section
/-! DEFINITION. Flag instructions, NOP and the unrecognized opcode (46_flags_system.md). -/

namespace Sys2Proof.Machine

/-- CLC (R250). -/
def execClc (s : State) : Host.Outcome State Fault Refusal := .next (s.setFlags { s.flags with c := false })

/-- SEC (R251). -/
def execSec (s : State) : Host.Outcome State Fault Refusal := .next (s.setFlags { s.flags with c := true })

/-- CLI (R252). -/
def execCli (s : State) : Host.Outcome State Fault Refusal := .next (s.setFlags { s.flags with i := false })

/-- SEI (R253). -/
def execSei (s : State) : Host.Outcome State Fault Refusal := .next (s.setFlags { s.flags with i := true })

/-- CLD (R254). -/
def execCld (s : State) : Host.Outcome State Fault Refusal := .next (s.setFlags { s.flags with d := false })

/-- SED (R255). -/
def execSed (s : State) : Host.Outcome State Fault Refusal := .next (s.setFlags { s.flags with d := true })

/-- CLV (R256). -/
def execClv (s : State) : Host.Outcome State Fault Refusal := .next (s.setFlags { s.flags with v := false })

/-- NOP (R257): nothing after its opcode fetch. -/
def execNop (s : State) : Host.Outcome State Fault Refusal := .next s

/-- `Diag(op, at)` (R260): one event is appended. -/
def emitDiag (op : Byte) (addr : Addr) (s : State) : State := { s with diag := s.diag ++ [{ op := op, addr := addr }] }

/-- UNREC (R259): the diagnostic carries the byte and the address it was fetched from, one below PC; nothing else. A byte that
RECOGNIZED holds is not UNREC's (R93) and is refused by name. -/
def execUnrec (op : Byte) (s : State) : Host.Outcome State Fault Refusal :=
  if s.cfg.recognized.contains op then .refused .recognizedByte else .next (emitDiag op (s.pc - 1) s)

end Sys2Proof.Machine
end

