-- ==== Sys2Proof/Machine/Fetch.lean ====
section
/-! DEFINITION. Fetching an instruction's bytes (R93, R111, R112). -/

namespace Sys2Proof.Machine

/-- `Fetch8()` (R111): the byte at PC through the bus, PC + 1 modulo 65536, one cycle. -/
def fetch8 (s : State) : Got :=
  let g := memRead s.pc s
  { value := g.value, state := (g.state.setPc (g.state.pc + 1)).addCyc 1 }

/-- An instruction and the state after its bytes have been fetched. -/
structure Fetched where
  instr : Instr
  state : State
deriving DecidableEq, Repr

/-- The opcode byte, then as many operand bytes as it asks for, in address order (R93, R130); an unrecognized opcode takes
no byte after it (R259). Which opcodes are recognized is the parameter RECOGNIZED (R5). -/
def fetchInstr (s : State) : Fetched :=
  let g0 := fetch8 s
  match operandBytes s.cfg.recognized g0.value with
  | 0 => { instr := decodeBytes s.cfg.recognized g0.value 0 0, state := g0.state }
  | 1 =>
    let g1 := fetch8 g0.state
    { instr := decodeBytes s.cfg.recognized g0.value g1.value 0, state := g1.state }
  | _ =>
    let g1 := fetch8 g0.state
    let g2 := fetch8 g1.state
    { instr := decodeBytes s.cfg.recognized g0.value g1.value g2.value, state := g2.state }

end Sys2Proof.Machine
end

