-- ==== Sys2Proof/Machine/Tick.lean ====
section
/-! DEFINITION. The parts of `Tick` (R285): the counter and the service before the instruction, the instruction itself
(`Step`, R286), the peripheral-tick phase and the pacing controller after it, and the host events between two Ticks. -/

namespace Sys2Proof.Machine

/-- `cyc <- 0` (R40, R285). -/
def clearCyc (s : State) : State := { s with cyc := 0 }

/-- The state in which a Tick fetches its instruction: the counter at 0, then the service of a pending request (R285). -/
def beginTick (s : State) : State := servicePending (clearCyc s)

/-- EXTRA_COST of an opcode byte (R325): the sum of its entries, 0 where there is none. -/
def extraCost (table : List (Byte × Nat)) (op : Byte) : Nat :=
  match table with
  | [] => 0
  | (k, n) :: rest => (if k = op then n else 0) + extraCost rest op

/-- EXTRA_COST of an instruction (R325). -/
def State.extraCostOf (s : State) (i : Instr) : Nat :=
  match i.opcode with
  | none => 0
  | some op => extraCost s.cfg.extraCost op

/-- `Step()` (R286): one instruction is fetched and runs to completion, and EXTRA_COST of its opcode is added (R325). -/
def stepInstr (s : State) : Host.Outcome State Fault Refusal :=
  let f := fetchInstr s
  match exec f.instr f.state with
  | .next t => .next (t.addCyc (t.extraCostOf f.instr))
  | .fault r => .fault r
  | .refused r => .refused r

/-- What the helper returns, and the peripheral with its accumulator after the call. -/
structure Crossing where
  peripheral : Peripheral
  returned : Bool
deriving DecidableEq, Repr

/-- `Crossed(p, delta)` (R291): the delta is added, and the divisor is subtracted once if it is reached. -/
def cross (p : Peripheral) (delta : Nat) : Crossing :=
  if p.divisor.val ≤ p.acc + delta then { peripheral := { p with acc := p.acc + delta - p.divisor.val }, returned := true }
  else { peripheral := { p with acc := p.acc + delta }, returned := false }

/-- `p.tick(delta)` as far as CORE has state in it (R290): a call of the helper, or nothing (log entry 11). -/
def tickPeripheral (delta : Nat) (p : Peripheral) : Crossing :=
  if p.usesHelper then cross p delta else { peripheral := p, returned := false }

/-- The peripheral-tick phase (R285, R290): every registered peripheral is told `cyc`; the environment's calls are made. -/
def tickPhase (s : State) : State :=
  let results := s.peripherals.map (tickPeripheral s.cyc)
  let t := { s with peripherals := results.map Crossing.peripheral, crossed := results.map Crossing.returned }
  match t.env.ticks with
  | [] => t
  | calls :: rest => signalRequests calls { t with env := { t.env with ticks := rest } }

/-- `BUDGET = floor(CLOCK_HZ / REFRESH_HZ)` (R295). -/
def budget (c : Config) : Nat := c.clockHz.val / c.refreshHz.val

/-- `Pace(cyc)` (R296) as far as it has state: strictly more than the budget subtracts it. -/
def pace (s : State) : State :=
  let total := s.paceAcc + s.cyc
  { s with paceAcc := if budget s.cfg < total then total - budget s.cfg else total }

/-- The end of a Tick (R285): the peripherals, then the pacing controller, both with the Tick's total. -/
def endTick (s : State) : State := pace (tickPhase s)

/-- The host's calls between this Tick and the next (R6, R272 c, R294). DESIGN CHOICE (log entry 10): they are made when the
Tick has ended, in the same step, so the host makes no call between construction and the first Tick. The spec leaves that
point open: R6, R272 and R294 speak of calls between Ticks and R313 of an NMI after the first Tick, and R312 has the first
Tick service Reset, but no rule forbids an earlier call. -/
def hostEvents (s : State) : State :=
  match s.env.host with
  | [] => s
  | calls :: rest => signalAll calls { s with env := { s.env with host := rest } }

/-- Where the next instruction will be fetched (R285): PC after the service, if there is one. -/
def State.fetchAddr (s : State) : Addr := (beginTick s).pc

/-- A byte of an instruction placed in memory. -/
def State.placeByte (nbits w k : Nat) (addr : Addr) (s : State) : State := s.poke (addr + BitVec.ofNat 16 k) (tableByte nbits w k)

end Sys2Proof.Machine
end

