-- ==== Sys2Proof/Machine/Step.lean ====
section
/-! DEFINITION. One step of the machine: one `Tick()` (R285), and the host's calls before the next. -/

namespace Sys2Proof.Machine

/-- `Tick()` (R285): what comes before the instruction, the instruction, what comes after it; then the host's calls (log entry 10). -/
def step (s : State) : Host.Outcome State Fault Refusal :=
  match stepInstr (beginTick s) with
  | .next t => .next (hostEvents (endTick t))
  | .fault r => .fault r
  | .refused r => .refused r

/-- The instruction stored where `step` fetches its next instruction, three bytes upward from there (log entry 3). -/
def State.withFetchWord (s : State) (nbits w : Nat) : State :=
  s.placeByte nbits w 0 s.fetchAddr |>.placeByte nbits w 1 s.fetchAddr |>.placeByte nbits w 2 s.fetchAddr

end Sys2Proof.Machine
end

