-- ==== Sys2Proof/Machine/Boot.lean ====
section
/-! DEFINITION. Construction (R45, R81, R310): the only power-on event, with everything the spec leaves to its caller as an
argument. `State.reset` is one of the states it builds. -/

namespace Sys2Proof.Machine

/-- The INIT_ values of R5: A, X, Y, SP, PC and the flags at construction, which the spec leaves unspecified (R45, D15). -/
structure InitValues where
  a : Byte
  x : Byte
  y : Byte
  sp : Byte
  pc : Addr
  flags : Flags
deriving DecidableEq, Repr

/-- A peripheral as it is registered: its accumulator starts at 0 (R41, D26). -/
def Peripheral.registered (divisor : Positive) (usesHelper : Bool) : Peripheral :=
  { divisor := divisor, usesHelper := usesHelper, acc := 0 }

/-- `bind` (R65), at construction time: the offset is claimed; which of several claims won (the last) shows only in the
answers of its handlers, which are the environment's. -/
def bindOffset (offset : Byte) (c : Config) : Config :=
  if c.bound.contains offset then c else { c with bound := c.bound ++ [offset] }

/-- The state after construction (R45, R310), for an image that fits; one that does not is refused (R81, D34). -/
def State.construct (init : InitValues) (cfg : Config) (peripherals : List (Positive × Bool)) (env : Environment)
    (image : List Byte) (loadOffset : Nat) : Host.Outcome State Fault Refusal :=
  if loadOffset + image.length ≤ 65536 then
    .next
      { a := init.a, x := init.x, y := init.y, sp := init.sp, pc := init.pc, flags := init.flags
        pending := some .reset, mem := Memory.load [] loadOffset image, cyc := 0
        peripherals := peripherals.map fun p => Peripheral.registered p.1 p.2
        paceAcc := 0, diag := [], devEvents := [], crossed := [], env := env, draws := 0, cfg := cfg }
  else .refused .imageDoesNotFit

end Sys2Proof.Machine
end

