-- ==== Sys2Proof/Safety.lean ====
section
/-! DEFINITION. What counts as a safe run of this hardware, and the terms the claims are stated in. -/

namespace Sys2Proof.Machine

/-- An outcome that is a next state: on this hardware every Tick has one (R13, R283, 93 Part 1). -/
def Completes (o : Host.Outcome State Fault Refusal) : Prop := ∃ t, o = .next t

/-- A property of states that every Tick keeps. -/
def Invariant (P : State → Prop) : Prop := ∀ s t, P s → step s = .next t → P t

/-- The 16-bit value MEM holds at an address (R67), where neither byte is a bound offset. -/
def State.word (s : State) (addr : Addr) : Addr := join (s.peek (secondAddr s.cfg.wordReadPageWrap addr)) (s.peek addr)

/-- The effective address of an operand form, as R119 to R126 write it; none for ACC and IMM. -/
def effectiveAddr (m : Operand) (s : State) : Option Addr :=
  match m with
  | .acc | .imm _ => none
  | .zp z => some (zext16 z)
  | .zpx z => some (zext16 (z + s.x))
  | .zpy z => some (zext16 (z + s.y))
  | .abs w => some w
  | .abx w => some (w + zext16 s.x)
  | .aby w => some (w + zext16 s.y)
  | .izx z => some (s.word (zext16 (z + s.x)))
  | .izy z => some (s.word (zext16 z) + zext16 s.y)

/-- The cycles of the pointer bytes (R125, R126, R129). -/
def pointerCycles : Operand → Nat
  | .izx _ | .izy _ => 2
  | _ => 0

/-- The value of an operand that is not in memory: the immediate byte (R118) or A (R117). -/
def directValue (m : Operand) (s : State) : Byte :=
  match m with
  | .imm v => v
  | _ => s.a

/-- The operand and the state after it is read, in the terms of R114, R117 to R126: one bus access at the effective address,
one cycle for it and one for each pointer byte. -/
def operandValue (m : Operand) (s : State) : Got :=
  match effectiveAddr m s with
  | none => { value := directValue m s, state := s }
  | some addr => memRead addr (s.addCyc (pointerCycles m + 1))

/-- An effect of bound handlers only (R64): nothing but the pending slot, the handlers' part of the script, the event list and
the counter of free values may differ. -/
def HandlersOnly (s t : State) : Prop :=
  ∃ pending reads writes devEvents draws,
    t = { s with
          pending := pending, env := { s.env with reads := reads, writes := writes }, devEvents := devEvents, draws := draws }

/-- The bytes in MEM from PC upward decode, by the machine's RECOGNIZED, to the instruction, all of them, and none stands at a
bound offset. -/
def State.codeAt (s : State) (i : Instr) (bytes : List Byte) : Prop :=
  decodeWith s.cfg.recognized bytes = .ok (i, []) ∧
    ∀ k, k < bytes.length → s.isBound (s.pc + BitVec.ofNat 16 k) = false ∧
      bytes[k]? = some (s.peek (s.pc + BitVec.ofNat 16 k))

/-- The state once the instruction's bytes have been fetched (R22, R111): PC past them, one cycle each. -/
def State.pastBytes (s : State) (bytes : List Byte) : State :=
  { s with pc := s.pc + BitVec.ofNat 16 bytes.length, cyc := s.cyc + bytes.length }

/-- The flags with Z and S from a value (R171), the others as they were. -/
def withZS (v : Byte) (f : Flags) : Flags := { f with z := decide (v = 0), s := decide (128 ≤ v.toNat) }

/-- What no meaning writes: the peripherals' accumulators, the pacing accumulator, the helper's returns, the configuration
(R37, R40 to R42: only the Tick around the instruction does), and the diagnostic list (UNREC apart, R260). -/
def KeepsTheRest (s t : State) : Prop :=
  t.peripherals = s.peripherals ∧ t.paceAcc = s.paceAcc ∧ t.diag = s.diag ∧ t.crossed = s.crossed ∧ t.cfg = s.cfg

/-- What an effect without a bound access leaves: the slot, the script, the device events and the free values. -/
def KeepsTheOutside (s t : State) : Prop :=
  t.pending = s.pending ∧ t.env = s.env ∧ t.devEvents = s.devEvents ∧ t.draws = s.draws

/-- The condition of a branch (R227 to R234); false for an instruction that is no branch. -/
def branchTaken (i : Instr) (f : Flags) : Bool :=
  match i with
  | .bcc _ => !f.c
  | .bcs _ => f.c
  | .beq _ => f.z
  | .bne _ => !f.z
  | .bmi _ => f.s
  | .bpl _ => !f.s
  | .bvc _ => !f.v
  | .bvs _ => f.v
  | _ => false

/-- The first line of the class table of R325: one data access. -/
def accessCycles : Operand → Nat
  | .acc => 1
  | .imm _ => 2
  | .zp _ | .zpx _ | .zpy _ => 3
  | .abs _ | .abx _ | .aby _ => 4
  | .izx _ | .izy _ => 5

/-- The third line of the class table of R325: a read and a write-back. -/
def modifyCycles : Operand → Nat
  | .acc => 1
  | m => accessCycles m + 1

/-- The class table of R325: the cycles of an instruction, its opcode fetch included, EXTRA_COST apart. -/
def instrCycles (i : Instr) (taken : Bool) : Nat :=
  match i with
  | .lda m | .ldx m | .ldy m | .sta m | .stx m | .sty m | .adc m | .sbc m | .cmp m | .cpx m | .cpy m
  | .and m | .ora m | .eor m | .bit m => accessCycles m
  | .asl m | .lsr m | .rol m | .ror m | .inc m | .dec m => modifyCycles m
  | .tax | .tay | .txa | .tya | .tsx | .txs | .inx | .iny | .dex | .dey
  | .clc | .sec | .cli | .sei | .cld | .sed | .clv | .nop | .brk | .unrec _ => 1
  | .pha | .php | .pla | .plp => 2
  | .rts => 3
  | .rti => 4
  | .jmpAbs _ => 3
  | .jsr _ => 5
  | .jmpInd _ => 5
  | .bcc _ | .bcs _ | .beq _ | .bne _ | .bmi _ | .bpl _ | .bvc _ | .bvs _ => if taken then 3 else 2

/-- The state with everything that cycle counts reach, and the outputs, put aside (R12, R326): what is left is all a
program can see and all that decides what it does. -/
def State.untimed (s : State) : State :=
  { s with
    cyc := 0, peripherals := [], paceAcc := 0, crossed := [], diag := [], devEvents := []
    cfg := { s.cfg with extraCost := [], clockHz := ⟨1, by decide⟩, refreshHz := ⟨1, by decide⟩ } }

end Sys2Proof.Machine
end

