-- ==== Sys2Proof/Certificates/Slice0/Obligations.lean ====
section
/-! DEFINITION. The statements for the provers. `s` is the state a meaning is given (the instruction's bytes have been
fetched: PC is past them, R22), `t` the state it answers. -/

open Sys2Proof Sys2Proof.Machine

/-! Encoding. -/

/-- Every well-formed instruction has an encoding, and decoding it, by any set of recognized bytes that selects it, whatever bytes
follow, gives the instruction back and leaves those bytes (R90 to R97). -/
def Obligations.DecodeOfEncodeIsTheInstruction : Prop :=
  ∀ (recognized : List Byte) (i : Instr), i.wellFormed = true → i.selectedBy recognized = true →
    ∃ bytes, i.encode = some bytes ∧ ∀ rest, decodeWith recognized (bytes ++ rest) = .ok (i, rest)

/-- Whatever decodes, by any set of recognized bytes, is well formed and selected by the set, and the bytes it was decoded from are
its encoding: no two encodings share an instruction, and no bit of one is dropped (R93, R100). -/
def Obligations.EveryDecodingIsAnEncoding : Prop :=
  ∀ (recognized bytes : List Byte) (i : Instr) (rest : List Byte), decodeWith recognized bytes = .ok (i, rest) →
    i.wellFormed = true ∧ i.selectedBy recognized = true ∧ ∃ code, i.encode = some code ∧ bytes = code ++ rest

/-- Decoding is total (R93): any three bytes or more decode; the first byte is UNREC's, which takes that byte alone, exactly when it is
not recognized. Only a byte that RECOGNIZED holds although R96 gives it no instruction is rejected, by name, which is the model's
choice (log entry 4); the default of RECOGNIZED, the bytes of R96, and the 105 of R97 share none and leave none. -/
def Obligations.DecodingIsTotal : Prop :=
  (∀ (recognized : List Byte) (op b1 b2 : Byte) (rest : List Byte),
    (op ∈ recognized ∧ op ∈ unrecognizedBytes → decodeWith recognized (op :: b1 :: b2 :: rest) = .error (.noInstruction op)) ∧
    (¬(op ∈ recognized ∧ op ∈ unrecognizedBytes) →
      ∃ i tail, decodeWith recognized (op :: b1 :: b2 :: rest) = .ok (i, tail) ∧
        (op ∉ recognized → i = .unrec op ∧ tail = b1 :: b2 :: rest) ∧
        (op ∈ recognized → ∀ o, i ≠ .unrec o))) ∧
  ∀ op : Byte, op ∈ recognizedBytes ↔ op ∉ unrecognizedBytes

/-- One instruction of each family, its bytes written out from R96 and R92. -/
def Obligations.SampleBytesDecode : Prop :=
  decode [0xAD, 0x34, 0x12] = .ok (.lda (.abs 0x1234), []) ∧
  decode [0x91, 0x20] = .ok (.sta (.izy 0x20), []) ∧
  decode [0x48] = .ok (.pha, []) ∧
  decode [0x69, 0x10] = .ok (.adc (.imm 0x10), []) ∧
  decode [0x0A] = .ok (.asl .acc, []) ∧
  decode [0x6C, 0x20, 0x00] = .ok (.jmpInd 0x0020, []) ∧
  decode [0xD0, 0xFB] = .ok (.bne 0xFB, []) ∧
  decode [0xF8] = .ok (.sed, []) ∧
  decode [0x80, 0x10] = .ok (.unrec 0x80, [0x10])

/-! The Tick. -/

/-- A Tick (R285) zeroes the counter and services a pending request before the instruction; when it has ended, the host makes the
calls of the script's next entry, in order (R6, R272 c, R294, R314), and nothing else changes; where the script has ended it makes none.
That the calls stand at the end of a step, so that none comes before the first Tick, is the model's choice (log entries 6 and 10). -/
def Obligations.TickServicesFirstAndTheHostCallsLast : Prop :=
  ∀ s : State,
    (s.pending = none → beginTick s = { s with cyc := 0 }) ∧
    (∀ k, s.pending = some k → beginTick s = service k { s with cyc := 0 }) ∧
    ∀ t, stepInstr (beginTick s) = .next t →
      (s.env.host = [] → step s = .next (endTick t)) ∧
      (∀ calls rest, s.env.host = calls :: rest →
        step s = .next { signalAll calls (endTick t) with env := { (endTick t).env with host := rest } })

/-- When the bytes at PC decode to `i`, a Tick is `exec i` on the state with PC past those bytes and one cycle for each, with
EXTRA_COST of the opcode after it, the end of the Tick (R285, R286, R325), and the host's calls before the next (log entry 10). -/
def Obligations.StepRunsTheDecodedInstruction : Prop :=
  ∀ (s : State) (i : Instr) (bytes : List Byte), (beginTick s).codeAt i bytes →
    ∃ t, exec i ((beginTick s).pastBytes bytes) = .next t ∧
      step s = .next (hostEvents (endTick (t.addCyc (t.extraCostOf i))))

/-- The fetch reads the instruction stream upward from PC, modulo 65536, one cycle a byte (R22, R23, R111, R112). In every state,
a bound register-page offset at PC included (R62, R80), each byte is what the bus answers at PC, and the bytes fetched, as many as the
opcode asks for, are the encoding of the instruction; where they stand in MEM, nothing but PC and the counter changes. -/
def Obligations.FetchTakesTheBytesAtPc : Prop :=
  (∀ s : State,
    let g0 := fetch8 s
    let g1 := fetch8 g0.state
    let g2 := fetch8 g1.state
    g0.value = (memRead s.pc s).value ∧ g0.state = { (memRead s.pc s).state with pc := s.pc + 1, cyc := s.cyc + 1 } ∧
    match operandBytes s.cfg.recognized g0.value with
    | 0 => (fetchInstr s).instr.encode = some [g0.value] ∧ (fetchInstr s).state = g0.state
    | 1 => (fetchInstr s).instr.encode = some [g0.value, g1.value] ∧ (fetchInstr s).state = g1.state
    | _ => (fetchInstr s).instr.encode = some [g0.value, g1.value, g2.value] ∧ (fetchInstr s).state = g2.state) ∧
  ∀ (s : State) (i : Instr) (bytes : List Byte), s.codeAt i bytes →
    fetchInstr s = { instr := i, state := s.pastBytes bytes }

/-- Every state has a next state under Tick: no fault, no refusal, whatever is in memory, whatever the configuration and
whatever the environment does (R13, R283). Only where the opcode fetched is one that RECOGNIZED holds although R96 gives it no
instruction, which no byte is at the default, the Tick is refused by name; that is the model's choice (log entry 4). -/
def Obligations.EveryTickCompletes : Prop :=
  ∀ s : State,
    let op := (fetch8 (beginTick s)).value
    if op ∈ s.cfg.recognized ∧ op ∈ unrecognizedBytes then step s = .refused .recognizedByte else Completes (step s)

/-- A meaning completes on every well-formed instruction in every state, and refuses every other term by name; UNREC of a byte that
RECOGNIZED holds is such a term. That there are such terms is the model's choice (log entries 4 and 13). -/
def Obligations.ExecCompletesExactlyOnInstructions : Prop :=
  ∀ (i : Instr) (s : State),
    (i.wellFormed = true → (∀ op, i = .unrec op → op ∉ s.cfg.recognized) → Completes (exec i s)) ∧
    (i.wellFormed = false → exec i s = .refused .noSuchForm) ∧
    ∀ op, i = .unrec op → op ∈ s.cfg.recognized → exec i s = .refused .recognizedByte

/-! Invariants of every Tick. -/

/-- The memory keeps its canonical form (R60): every Tick leaves addresses below 65536, strictly rising, none listed that
holds what an unlisted address reads as. The form is the model's (log entry 2). -/
def Obligations.MemoryStaysCanonical : Prop := Invariant fun s => s.mem.wf = true

/-- B and R are never cleared (R29, R30): a Tick that starts with one of them at 1 ends with it at 1. -/
def Obligations.BreakAndReservedAreNeverCleared : Prop :=
  ∀ s t : State, step s = .next t → (s.flags.b = true → t.flags.b = true) ∧ (s.flags.r = true → t.flags.r = true)

/-- With EXTRA_COST 0 the counter a Tick reports is at least 1 and at most 8 (R40, R292). -/
def Obligations.TickCountsOneToEightCycles : Prop :=
  ∀ s t : State, s.cfg.extraCost = [] → step s = .next t → 1 ≤ t.cyc ∧ t.cyc ≤ 8

/-- With EXTRA_COST 0 and every divisor at least 8, the accumulators of the peripherals stay below their divisors (R292). -/
def Obligations.AccumulatorsStayBelowDivisors : Prop :=
  Invariant fun s => s.cfg.extraCost = [] ∧ ∀ p ∈ s.peripherals, 8 ≤ p.divisor.val ∧ p.acc < p.divisor.val

/-- A Tick leaves the configuration (R65: fixed for the whole run) and what the peripherals are registered with; the
diagnostic output is appended to, by one event at most (R44, R260). That the registered peripherals, their divisors and their use
of the helper stay is the model's choice (log entries 5 and 11; R290 leaves `tick` to the peripheral). -/
def Obligations.ConfigurationIsFixedAndDiagnosticsGrow : Prop :=
  ∀ s t : State, step s = .next t →
    t.cfg = s.cfg ∧
    t.peripherals.map (fun p => (p.divisor, p.usesHelper)) = s.peripherals.map (fun p => (p.divisor, p.usesHelper)) ∧
    ∃ new, t.diag = s.diag ++ new ∧ new.length ≤ 1

/-- No register, flag, PC, cell of MEM or request is computed from a cycle count (R12, R326): two states that differ only in the
counters, the registered peripherals, EXTRA_COST, CLOCK_HZ, REFRESH_HZ and the outputs answer, Tick for Tick, states that differ only
there. The environment is the model's script (log entry 6), which does not look at the counters; a real peripheral may (R46). -/
def Obligations.ScriptedRunsIgnoreCycleCounts : Prop :=
  ∀ s t s' : State, s.untimed = t.untimed → step s = .next s' → ∃ t', step t = .next t' ∧ s'.untimed = t'.untimed

/-! Construction and reset. -/

/-- Construction (R45, R81, R310), for every INIT_ value, configuration, registered peripherals and environment, each of which the
state then holds: an image that fits is copied over zeros, `pending` is Reset, the counters are 0, the memory is canonical; an image that
does not fit is refused. A bind (R65) claims its offset and leaves the rest of the configuration. -/
def Obligations.ConstructionCopiesTheImage : Prop :=
  (∀ (init : InitValues) (cfg : Config) (ps : List (Positive × Bool)) (env : Environment) (image : List Byte) (off : Nat),
    (off + image.length ≤ 65536 →
      ∃ s, State.construct init cfg ps env image off = .next s ∧
        s.mem.wf = true ∧
        (∀ a : Nat, s.mem.read a = if off ≤ a ∧ a < off + image.length then image.getD (a - off) 0 else 0) ∧
        s.pending = some .reset ∧ s.cyc = 0 ∧ s.paceAcc = 0 ∧ (∀ p ∈ s.peripherals, p.acc = 0) ∧ s.diag = [] ∧
        s.a = init.a ∧ s.x = init.x ∧ s.y = init.y ∧ s.sp = init.sp ∧ s.pc = init.pc ∧ s.flags = init.flags ∧
        s.cfg = cfg ∧ s.env = env ∧ s.peripherals.map (fun p => (p.divisor, p.usesHelper)) = ps) ∧
    (65536 < off + image.length → State.construct init cfg ps env image off = .refused .imageDoesNotFit)) ∧
  ∀ (offset : Byte) (cfg : Config),
    (∀ o, o ∈ (bindOffset offset cfg).bound ↔ o = offset ∨ o ∈ cfg.bound) ∧
    { bindOffset offset cfg with bound := cfg.bound } = cfg

/-- The reset state is what construction builds (R45, R310) from INIT_ values of zero (log entry 1), no image (log entry 3), the
configuration and the peripherals of log entry 5 and the environment of log entry 6. Reset is pending, the counters are 0, there is no
diagnostic (R45), RECOGNIZED and EXTRA_COST are at their defaults (R5). For want of an image memory reads 0 everywhere, in the canonical
form of log entry 2. So the invariants of every Tick hold there. -/
def Obligations.ResetStateIsAsConstructed : Prop :=
  State.construct { a := 0, x := 0, y := 0, sp := 0, pc := 0, flags := State.reset.flags } resetConfig [] silentEnvironment [] 0 =
    .next State.reset ∧
  State.reset.pending = some .reset ∧ State.reset.mem.wf = true ∧ (∀ addr, State.reset.peek addr = 0) ∧
  State.reset.cyc = 0 ∧ State.reset.paceAcc = 0 ∧ (∀ p ∈ State.reset.peripherals, p.acc = 0) ∧ State.reset.diag = [] ∧
  State.reset.cfg.recognized = recognizedBytes ∧ State.reset.cfg.extraCost = [] ∧
  (∀ p ∈ State.reset.peripherals, 8 ≤ p.divisor.val ∧ p.acc < p.divisor.val)

/-- The first fetch after construction, whatever the INIT_ values, the configuration and the environment (R312): I and Z are 1, three
cycles are counted, PC is the little-endian word at 0xFFFC, nothing is pushed, no other register or flag is written. That the host makes
no call before the first Tick is the model's choice (log entry 10). -/
def Obligations.FirstFetchIsAtTheResetVector : Prop :=
  ∀ (init : InitValues) (cfg : Config) (ps : List (Positive × Bool)) (env : Environment) (image : List Byte) (off : Nat) (s : State),
    State.construct init cfg ps env image off = .next s →
    beginTick s =
      { s with
        flags := { s.flags with i := true, z := true }, cyc := 3
        pc := join (s.peek 0xFFFD) (s.peek 0xFFFC), pending := none }

/-! Interrupts. -/

/-- `SignalInterrupt` (R271): IRQ is suppressed by I and dropped by any pending request; NMI, BRK and Reset overwrite the slot,
whatever I is; nothing else changes. -/
def Obligations.SignalInterruptLatchesOrDrops : Prop :=
  ∀ s : State,
    (s.flags.i = true ∨ s.pending ≠ none → signalInterrupt .irq s = s) ∧
    (s.flags.i = false ∧ s.pending = none → signalInterrupt .irq s = { s with pending := some .irq }) ∧
    signalInterrupt .nmi s = { s with pending := some .nmi } ∧
    signalInterrupt .brk s = { s with pending := some .brk } ∧
    signalInterrupt .reset s = { s with pending := some .reset }

/-- Several calls before a service (R274): the last NMI, BRK or Reset wins; where all are IRQs, one wins only if the slot was
empty and I was 0. -/
def Obligations.LastUnmaskableRequestWins : Prop :=
  ∀ (s : State) (before after : List IntKind) (k : IntKind), (∀ j ∈ after, j = .irq) →
    (k ≠ .irq → signalAll (before ++ k :: after) s = { s with pending := some k }) ∧
    ((∀ j ∈ before, j = .irq) → k = .irq →
      signalAll (before ++ k :: after) s =
        if s.flags.i = false ∧ s.pending = none then { s with pending := some .irq } else s)

/-- The Reset service (R277), in every state: I and Z become 1, three cycles are counted, PC is the little-endian word at 0xFFFC, the
slot is None; nothing is pushed, and no other register, flag or cell of MEM is written. -/
def Obligations.ResetServicePushesNothing : Prop :=
  ∀ s : State,
    service .reset s =
      { s with
        flags := { s.flags with i := true, z := true }, cyc := s.cyc + 3
        pc := join (s.peek 0xFFFD) (s.peek 0xFFFC), pending := none }

/-- The service (R275, R276, R277): for NMI, IRQ and BRK the frame of R278 is pushed, PC high byte first, then the flags as they
were; for Reset nothing is pushed. I becomes 1, B becomes 1 for BRK only, Z for Reset only; three cycles; PC is the
little-endian word at the kind's vector; the slot is None; A, X, Y and the other flags keep their values. -/
def Obligations.ServiceEntersTheHandler : Prop :=
  ∀ (k : IntKind) (s : State),
    (k = .reset → (service k s).sp = s.sp ∧ ∀ a, (service k s).peek a = s.peek a) ∧
    (k ≠ .reset →
      (service k s).sp = s.sp - 3 ∧
      (service k s).peek (stackAddr s.sp) = hi8 s.pc ∧
      (service k s).peek (stackAddr (s.sp - 1)) = lo8 s.pc ∧
      (service k s).peek (stackAddr (s.sp - 2)) = s.flags.pack ∧
      ∀ a, a ≠ stackAddr s.sp → a ≠ stackAddr (s.sp - 1) → a ≠ stackAddr (s.sp - 2) → (service k s).peek a = s.peek a) ∧
    (service k s).flags =
      { s.flags with
        i := true
        b := s.flags.b || decide (k = .brk)
        z := s.flags.z || decide (k = .reset) } ∧
    (service k s).cyc = s.cyc + 3 ∧
    (service k s).pc =
      (match k with
        | .reset => join (s.peek 0xFFFD) (s.peek 0xFFFC)
        | .nmi => join (s.peek 0xFFFB) (s.peek 0xFFFA)
        | .irq | .brk => join (s.peek 0xFFFF) (s.peek 0xFFFE)) ∧
    (service k s).pending = none ∧
    (service k s).a = s.a ∧ (service k s).x = s.x ∧ (service k s).y = s.y ∧
    (service k s).env = s.env ∧ (service k s).devEvents = s.devEvents ∧ (service k s).draws = s.draws ∧
    KeepsTheRest s (service k s)

/-- RTI takes back what an NMI, IRQ or BRK entry did (R224, R280): PC, SP, A, X, Y and C, Z, I, D, V, S are those of before the
entry, B and R are 1. -/
def Obligations.RtiUndoesTheEntry : Prop :=
  ∀ (k : IntKind) (s t : State), k ≠ .reset → exec .rti (service k s) = .next t →
    t.pc = s.pc ∧ t.sp = s.sp ∧ t.a = s.a ∧ t.x = s.x ∧ t.y = s.y ∧ t.flags = { s.flags with b := true, r := true }

/-! The bus, the memory, the stack. -/

/-- The one read and the one write of the bus (R62, R63): a bound offset of page 0xFD goes to its handler, every other address
is the cell of MEM. -/
def Obligations.BusDispatchesTheRegisterPage : Prop :=
  ∀ (addr : Addr) (v : Byte) (s : State),
    (hi8 addr = 0xFD ∧ lo8 addr ∈ s.cfg.bound →
      memRead addr s = deviceRead (lo8 addr) s ∧ memWrite addr v s = deviceWrite (lo8 addr) v s) ∧
    (¬(hi8 addr = 0xFD ∧ lo8 addr ∈ s.cfg.bound) →
      memRead addr s = { value := s.mem.read addr.toNat, state := s } ∧
      memWrite addr v s = { s with mem := s.mem.write addr.toNat v })

/-- Handlers (R64): a bound read answers the script's byte, or a free value where the script is silent, a bound write hands the
byte over; each is one device event. The handler's `SignalInterrupt` calls reach the slot in their order (R272 b) and the script moves on by
its entry; with an ended script the slot stays, and a read draws one free value. No register, flag, counter or cell of MEM changes. The
script, the free values and the list of events are the model's (log entries 6 and 7). -/
def Obligations.HandlersCallAndTouchNoCpuState : Prop :=
  ∀ (o v : Byte) (s : State),
    (deviceRead o s).value =
      (match s.env.reads with
        | r :: _ => r.value
        | [] => Config.freeDeviceByte s.draws) ∧
    (∀ r rest, s.env.reads = r :: rest →
      (deviceRead o s).state.pending = (signalAll (r.calls.map PeripheralRequest.kind) s).pending ∧
      (deviceRead o s).state.env = { s.env with reads := rest } ∧ (deviceRead o s).state.draws = s.draws) ∧
    (s.env.reads = [] →
      (deviceRead o s).state.pending = s.pending ∧ (deviceRead o s).state.env = s.env ∧
      (deviceRead o s).state.draws = s.draws + 1) ∧
    (∀ calls rest, s.env.writes = calls :: rest →
      (deviceWrite o v s).pending = (signalAll (calls.map PeripheralRequest.kind) s).pending ∧
      (deviceWrite o v s).env = { s.env with writes := rest }) ∧
    (s.env.writes = [] → (deviceWrite o v s).pending = s.pending ∧ (deviceWrite o v s).env = s.env) ∧
    (deviceWrite o v s).draws = s.draws ∧
    (deviceRead o s).state.devEvents = s.devEvents ++ [.read o (deviceRead o s).value] ∧
    (deviceWrite o v s).devEvents = s.devEvents ++ [.write o v] ∧
    ∀ t, t = (deviceRead o s).state ∨ t = deviceWrite o v s →
      t.a = s.a ∧ t.x = s.x ∧ t.y = s.y ∧ t.sp = s.sp ∧ t.pc = s.pc ∧ t.flags = s.flags ∧ t.cyc = s.cyc ∧
      (∀ a, t.peek a = s.peek a) ∧ KeepsTheRest s t

/-- An unbound register-page offset is plain storage (R66): a write followed by a read returns the byte, the cell is
MEM[0xFD00 + o], and no other cell changes. -/
def Obligations.UnboundOffsetIsStorage : Prop :=
  ∀ (o v : Byte) (s : State), o ∉ s.cfg.bound →
    (memRead (join 0xFD o) (memWrite (join 0xFD o) v s)).value = v ∧
    (memWrite (join 0xFD o) v s).peek (join 0xFD o) = v ∧
    ∀ a, a ≠ join 0xFD o → (memWrite (join 0xFD o) v s).peek a = s.peek a

/-- A 16-bit read (R67) reads the low byte first, then the high byte from `addr + 1`, or from
`(addr & 0xFF00) | ((addr + 1) & 0x00FF)` where WORD_READ_PAGE_WRAP is set. -/
def Obligations.WordReadTakesTheLowByteFirst : Prop :=
  ∀ (addr : Addr) (s : State),
    let second := if s.cfg.wordReadPageWrap then (addr &&& 0xFF00) ||| ((addr + 1) &&& 0x00FF) else addr + 1
    let lo := memRead addr s
    let hi := memRead second lo.state
    (memReadWord addr s).value.toNat = hi.value.toNat * 256 + lo.value.toNat ∧ (memReadWord addr s).state = hi.state

/-- A 16-bit push followed by a 16-bit pull returns the value and restores SP, for every value and every SP, wraps included
(R72 to R74). -/
def Obligations.StackRoundTrip : Prop :=
  ∀ (w : Addr) (s : State),
    (pull16 (push16 w s)).value = w ∧ (pull16 (push16 w s)).state.sp = s.sp ∧
    (push16 w s).peek (0x0100 + zext16 s.sp) = hi8 w ∧ (push16 w s).peek (0x0100 + zext16 (s.sp - 1)) = lo8 w ∧
    ∀ a, a ≠ 0x0100 + zext16 s.sp → a ≠ 0x0100 + zext16 (s.sp - 1) → (push16 w s).peek a = s.peek a

/-- The effective address of every memory form, in the numbers of R119 to R126: zero-page indexing wraps in page 0, absolute
indexing modulo 65536, pointers are little-endian. -/
def Obligations.ResolverFindsTheEffectiveAddress : Prop :=
  ∀ (z : Byte) (w : Addr) (s : State),
    let pointer (p : Nat) : Nat :=
      (s.mem.read p).toNat + (s.mem.read (if s.cfg.wordReadPageWrap then (p + 1) % 256 else p + 1)).toNat * 256
    (resolve (.zp z) s).ref = .mem (BitVec.ofNat 16 z.toNat) ∧
    (resolve (.zpx z) s).ref = .mem (BitVec.ofNat 16 ((z.toNat + s.x.toNat) % 256)) ∧
    (resolve (.zpy z) s).ref = .mem (BitVec.ofNat 16 ((z.toNat + s.y.toNat) % 256)) ∧
    (resolve (.abs w) s).ref = .mem w ∧
    (resolve (.abx w) s).ref = .mem (BitVec.ofNat 16 ((w.toNat + s.x.toNat) % 65536)) ∧
    (resolve (.aby w) s).ref = .mem (BitVec.ofNat 16 ((w.toNat + s.y.toNat) % 65536)) ∧
    (resolve (.izx z) s).ref = .mem (BitVec.ofNat 16 (pointer ((z.toNat + s.x.toNat) % 256))) ∧
    (resolve (.izy z) s).ref = .mem (BitVec.ofNat 16 ((pointer z.toNat + s.y.toNat) % 65536)) ∧
    ∀ m, (resolve m s).state = { s with cyc := s.cyc + pointerCycles m }

/-! Loads, stores, transfers. -/

/-- LDA, LDX, LDY (R140 to R142), every form: the register takes the operand, Z and S follow it, nothing else is written but
by the operand's read. -/
def Obligations.LoadsTakeTheOperand : Prop :=
  ∀ (m : Operand) (s : State),
    let g := operandValue m s
    ((Instr.lda m).wellFormed = true →
      exec (.lda m) s = .next { g.state with a := g.value, flags := withZS g.value s.flags }) ∧
    ((Instr.ldx m).wellFormed = true →
      exec (.ldx m) s = .next { g.state with x := g.value, flags := withZS g.value s.flags }) ∧
    ((Instr.ldy m).wellFormed = true →
      exec (.ldy m) s = .next { g.state with y := g.value, flags := withZS g.value s.flags })

/-- The byte stored at an effective address (R63, R143): the cell there takes it, or, where the offset is bound, the handler
does and MEM is as it was; every other cell reads as before. -/
def StoredByte (addr : Addr) (v : Byte) (s t : State) : Prop :=
  (∀ b, b ≠ addr → t.peek b = s.peek b) ∧
  (s.isBound addr = false → t.peek addr = v ∧ KeepsTheOutside s t) ∧
  (s.isBound addr = true → t.peek addr = s.peek addr ∧ t.devEvents = s.devEvents ++ [.write (lo8 addr) v])

/-- STA, STX, STY (R143 to R145), every form: one write of the register at the effective address, no read of the target; no
register and no flag is written. -/
def Obligations.StoresWriteTheirRegister : Prop :=
  ∀ (m : Operand) (s : State) (addr : Addr), effectiveAddr m s = some addr →
    ∀ (i : Instr) (v : Byte), (i = .sta m ∧ v = s.a) ∨ (i = .stx m ∧ v = s.x) ∨ (i = .sty m ∧ v = s.y) →
      i.wellFormed = true →
      ∃ t, exec i s = .next t ∧ StoredByte addr v s t ∧
        t.a = s.a ∧ t.x = s.x ∧ t.y = s.y ∧ t.sp = s.sp ∧ t.pc = s.pc ∧ t.flags = s.flags ∧
        t.cyc = s.cyc + pointerCycles m + 1 ∧ KeepsTheRest s t

/-- The instructions on registers alone. The six transfers (R146 to R151) copy their source, Z and S follow the value, but for TXS,
which writes no flag; INX, INY, DEX, DEY (R180, R181, R183, R184) go one up or down modulo 256, Z and S from the new value. No other
register, no other flag, no byte of memory changes. -/
def Obligations.RegisterInstructionsWriteTheirRegister : Prop :=
  ∀ s : State,
    exec .tax s = .next { s with x := s.a, flags := withZS s.a s.flags } ∧
    exec .tay s = .next { s with y := s.a, flags := withZS s.a s.flags } ∧
    exec .txa s = .next { s with a := s.x, flags := withZS s.x s.flags } ∧
    exec .tya s = .next { s with a := s.y, flags := withZS s.y s.flags } ∧
    exec .tsx s = .next { s with x := s.sp, flags := withZS s.sp s.flags } ∧
    exec .txs s = .next { s with sp := s.x } ∧
    exec .inx s = .next { s with x := s.x + 1, flags := withZS (s.x + 1) s.flags } ∧
    exec .iny s = .next { s with y := s.y + 1, flags := withZS (s.y + 1) s.flags } ∧
    exec .dex s = .next { s with x := s.x - 1, flags := withZS (s.x - 1) s.flags } ∧
    exec .dey s = .next { s with y := s.y - 1, flags := withZS (s.y - 1) s.flags }

/-! Stack instructions. -/

/-- PHA and PHP (R160, R161): the byte goes to 0x0100 + SP, SP is decremented modulo 256, one cycle; PHP pushes
`S*128 + V*64 + R*32 + B*16 + D*8 + I*4 + Z*2 + C` of the stored flags; no other cell, no register, no flag changes. -/
def Obligations.PushesStoreAtTheStackPointer : Prop :=
  ∀ s : State,
    let slot : Addr := 0x0100 + zext16 s.sp
    let into (v : Byte) : State := { s with mem := s.mem.write slot.toNat v, sp := s.sp - 1, cyc := s.cyc + 1 }
    exec .pha s = .next (into s.a) ∧
    exec .php s = .next (into s.flags.pack) ∧
    (∀ v, (into v).peek slot = v ∧ ∀ b, b ≠ slot → (into v).peek b = s.peek b)

/-- PLA and PLP (R162, R163): SP is incremented modulo 256, the byte is read at 0x0100 + SP; PLA sets A, Z and S; PLP sets all
eight flags, B and R to 1 (R32). -/
def Obligations.PullsReadAboveTheStackPointer : Prop :=
  ∀ s : State,
    let v := s.peek (0x0100 + zext16 (s.sp + 1))
    exec .pla s = .next { s with sp := s.sp + 1, cyc := s.cyc + 1, a := v, flags := withZS v s.flags } ∧
    exec .plp s =
      .next { s with
        sp := s.sp + 1, cyc := s.cyc + 1
        flags :=
          { c := v.getLsbD 0, z := v.getLsbD 1, i := v.getLsbD 2, d := v.getLsbD 3, b := true, r := true
            v := v.getLsbD 6, s := v.getLsbD 7 } }

/-- `Pack` and `Unpack` (R31, R32): the packed byte is the sum of the stored bits at their places; unpacking takes bits 0 to 3, 6
and 7 and forces B and R; packing right after it gives the byte with bits 4 and 5 set. -/
def Obligations.PackAndUnpackTheFlags : Prop :=
  (∀ f : Flags, f.pack.toNat =
    f.s.toNat * 128 + f.v.toNat * 64 + f.r.toNat * 32 + f.b.toNat * 16 + f.d.toNat * 8 + f.i.toNat * 4 + f.z.toNat * 2
      + f.c.toNat) ∧
  (∀ b : Byte, Flags.unpack b =
    { c := b.getLsbD 0, z := b.getLsbD 1, i := b.getLsbD 2, d := b.getLsbD 3, b := true, r := true
      v := b.getLsbD 6, s := b.getLsbD 7 }) ∧
  (∀ b : Byte, (Flags.unpack b).pack = b ||| 0x30)

/-! Arithmetic. -/

/-- The flag updater (R170), for every 9-bit result: the truncated byte is `raw mod 256`; C, if selected, is 1 exactly when raw is
above 255 or negative, and NC its complement; Z, if selected, when the byte is 0; S, if selected, its bit 7; an unselected flag and V, I, D, B,
R are not written. -/
def Obligations.UpdaterDerivesCarryZeroSign : Prop :=
  ∀ (raw : Int) (sel : FlagSelect) (f : Flags), -256 ≤ raw → raw ≤ 511 →
    (((updateFlags raw sel f).value.toNat : Nat) : Int) = raw % 256 ∧
    (updateFlags raw sel f).flags =
      { f with
        c := match sel.carry with
          | .keep => f.c
          | .carry => decide (255 < raw ∨ raw < 0)
          | .notCarry => decide (¬(255 < raw ∨ raw < 0))
        z := if sel.z then decide (raw % 256 = 0) else f.z
        s := if sel.s then decide (128 ≤ raw % 256) else f.s }

/-- BCD (R174): decoding reads two decimal digits, encoding writes them; each undoes the other on valid bytes and on 0..99. -/
def Obligations.BcdDecodesAndEncodes : Prop :=
  (∀ b : Byte, fromBCD b = (b >>> 4).toNat * 10 + (b &&& 0x0F).toNat) ∧
  (∀ b : Byte, validBCD b = true ↔ (b >>> 4).toNat ≤ 9 ∧ (b &&& 0x0F).toNat ≤ 9) ∧
  (∀ b : Byte, validBCD b = true → toBCD (fromBCD b) = b) ∧
  (∀ n : Nat, n < 100 → validBCD (toBCD n) = true ∧ fromBCD (toBCD n) = n)

/-- ADC with D = 0 (R172, R185), every form: A is the sum of A, the operand and C modulo 256; C is the carry out; V is 1 exactly
when the signed sum lies outside -128..127; Z and S follow the result. -/
def Obligations.AdcAddsInBinary : Prop :=
  ∀ (m : Operand) (s : State), (Instr.adc m).wellFormed = true → s.flags.d = false →
    let g := operandValue m s
    let sum : Nat := s.a.toNat + g.value.toNat + s.flags.c.toNat
    let signed : Int := s.a.toInt + g.value.toInt + s.flags.c.toNat
    exec (.adc m) s =
      .next { g.state with
        a := BitVec.ofNat 8 sum
        flags :=
          { withZS (BitVec.ofNat 8 sum) s.flags with
            c := decide (256 ≤ sum), v := decide (signed < -128 ∨ 127 < signed) } }

/-- SBC with D = 0 (R173, R185), every form: A is A minus the operand minus the borrow, modulo 256; C is 1 exactly when there is no
borrow; V is 1 exactly when the signed difference lies outside -128..127. -/
def Obligations.SbcSubtractsInBinary : Prop :=
  ∀ (m : Operand) (s : State), (Instr.sbc m).wellFormed = true → s.flags.d = false →
    let g := operandValue m s
    let difference : Int := (s.a.toNat : Int) - g.value.toNat - (1 - s.flags.c.toNat)
    let signed : Int := s.a.toInt - g.value.toInt - (1 - s.flags.c.toNat)
    exec (.sbc m) s =
      .next { g.state with
        a := BitVec.ofInt 8 difference
        flags :=
          { withZS (BitVec.ofInt 8 difference) s.flags with
            c := decide (0 ≤ difference), v := decide (signed < -128 ∨ 127 < signed) } }

/-- ADC and SBC with D = 1 and valid BCD operands (R172, R173), every form: A is the BCD byte whose two digits are the decimal sum or
difference modulo 100, C is the decimal carry or not-borrow, Z and S follow the BCD byte, V is not written. -/
def Obligations.DecimalModeAddsAndSubtractsDigits : Prop :=
  ∀ (m : Operand) (s : State), s.flags.d = true →
    let g := operandValue m s
    validBCD s.a = true → validBCD g.value = true →
    let sum : Nat := fromBCD s.a + fromBCD g.value + s.flags.c.toNat
    let difference : Int := (fromBCD s.a : Int) - fromBCD g.value - (1 - s.flags.c.toNat)
    ((Instr.adc m).wellFormed = true →
      ∃ result, validBCD result = true ∧ fromBCD result = sum % 100 ∧
        exec (.adc m) s =
          .next { g.state with a := result, flags := { withZS result s.flags with c := decide (100 ≤ sum) } }) ∧
    ((Instr.sbc m).wellFormed = true →
      ∃ result, validBCD result = true ∧ ((fromBCD result : Nat) : Int) = difference % 100 ∧
        exec (.sbc m) s =
          .next { g.state with a := result, flags := { withZS result s.flags with c := decide (0 ≤ difference) } })

/-- ADC and SBC with D = 1 and an operand that is not valid BCD (R175): A, C, Z and S are the next free values, whatever they are,
and one is drawn; V, the other flags, PC, memory and cycles are as in the valid case.
That the values are free is the model's reading of R175 (log entry 8). -/
def Obligations.InvalidBcdLeavesFreeValues : Prop :=
  ∀ (m : Operand) (s : State) (i : Instr), i = .adc m ∨ i = .sbc m → i.wellFormed = true → s.flags.d = true →
    let g := operandValue m s
    (validBCD s.a = true → validBCD g.value = false) →
    exec i s =
      .next { g.state with
        a := Config.freeBcdResult g.state.draws
        flags :=
          { s.flags with
            c := Config.freeBcdCarry g.state.draws, z := Config.freeBcdZero g.state.draws
            s := Config.freeBcdSign g.state.draws }
        draws := g.state.draws + 1 }

/-- CMP, CPX, CPY (R176 to R178), every form: C is register >= operand, unsigned, Z is equality, S is bit 7 of the difference; the
register, V and the other flags are unchanged, D is ignored. -/
def Obligations.ComparesSetCarryZeroSign : Prop :=
  ∀ (m : Operand) (s : State),
    let g := operandValue m s
    let flagsOf (r : Byte) : Flags :=
      { s.flags with
        c := decide (g.value.toNat ≤ r.toNat), z := decide (r = g.value), s := decide (128 ≤ (r - g.value).toNat) }
    ((Instr.cmp m).wellFormed = true → exec (.cmp m) s = .next { g.state with flags := flagsOf s.a }) ∧
    ((Instr.cpx m).wellFormed = true → exec (.cpx m) s = .next { g.state with flags := flagsOf s.x }) ∧
    ((Instr.cpy m).wellFormed = true → exec (.cpy m) s = .next { g.state with flags := flagsOf s.y })

/-! Read-modify-write. -/

/-- What ASL, LSR, ROL, ROR, INC and DEC make of a byte, in the bit operations of R179, R182, R204 to R207; nothing for another
instruction. -/
def modified (i : Instr) (v : Byte) (f : Flags) : Option (Byte × Flags) :=
  let carryIn : Byte := if f.c then 1 else 0
  match i with
  | .inc _ => some (v + 1, withZS (v + 1) f)
  | .dec _ => some (v - 1, withZS (v - 1) f)
  | .asl _ => some (v <<< 1, { withZS (v <<< 1) f with c := v.getLsbD 7 })
  | .lsr _ => some (v >>> 1, { withZS (v >>> 1) f with c := v.getLsbD 0 })
  | .rol _ => some (v <<< 1 ||| carryIn, { withZS (v <<< 1 ||| carryIn) f with c := v.getLsbD 7 })
  | .ror _ => some (carryIn <<< 7 ||| v >>> 1, { withZS (carryIn <<< 7 ||| v >>> 1) f with c := v.getLsbD 0 })
  | _ => none

/-- The operand form of ASL, LSR, ROL, ROR, INC or DEC. -/
def modifiedForm (i : Instr) : Option Operand :=
  match i with
  | .inc m | .dec m | .asl m | .lsr m | .rol m | .ror m => some m
  | _ => none

/-- ASL, LSR, ROL, ROR, INC, DEC (R77, R179, R182, R204 to R207). Every memory form: one read and one write at the same effective
address, the flags of the operation, one cycle more than the read; every other cell reads as before. The accumulator forms: A and the
flags of the operation, nothing else. -/
def Obligations.ReadModifyWriteChangesItsOperand : Prop :=
  (∀ (i : Instr) (s : State), i.wellFormed = true → modifiedForm i = some .acc →
    ∃ v f, modified i s.a s.flags = some (v, f) ∧ exec i s = .next { s with a := v, flags := f }) ∧
  ∀ (i : Instr) (m : Operand) (s : State) (addr : Addr), i.wellFormed = true → modifiedForm i = some m →
    effectiveAddr m s = some addr →
    let g := operandValue m s
    ∃ v f, modified i g.value s.flags = some (v, f) ∧
      exec i s = .next (memWrite addr v { g.state with flags := f, cyc := g.state.cyc + 1 }) ∧
      ∀ t, exec i s = .next t →
        (∀ b, b ≠ addr → t.peek b = s.peek b) ∧ (s.isBound addr = false → t.peek addr = v) ∧
        (s.isBound addr = true → t.peek addr = s.peek addr ∧
          t.devEvents = s.devEvents ++ [.read (lo8 addr) g.value, .write (lo8 addr) v])

/-- A true 9-bit rotate (R206, R207): nine ROLs, and nine RORs, restore the operand and C, whatever they were. -/
def Obligations.NineRotatesRestoreOperandAndCarry : Prop :=
  ∀ (v : Byte) (f : Flags),
    (Nat.iterate (fun o : Outcome8 => rotateLeft o.value o.flags) 9 { value := v, flags := f }).value = v ∧
    (Nat.iterate (fun o : Outcome8 => rotateLeft o.value o.flags) 9 { value := v, flags := f }).flags.c = f.c ∧
    (Nat.iterate (fun o : Outcome8 => rotateRight o.value o.flags) 9 { value := v, flags := f }).value = v ∧
    (Nat.iterate (fun o : Outcome8 => rotateRight o.value o.flags) 9 { value := v, flags := f }).flags.c = f.c

/-! Logic. -/

/-- AND, ORA, EOR (R200 to R202), every form: A takes the bitwise result, Z and S follow it, C and V are not written. BIT (R203), both
forms: Z from A and the operand, S and V from bits 7 and 6 of the operand; A and C are unchanged. -/
def Obligations.LogicCombinesAWithTheOperand : Prop :=
  ∀ (m : Operand) (s : State),
    let g := operandValue m s
    ((Instr.and m).wellFormed = true →
      exec (.and m) s = .next { g.state with a := s.a &&& g.value, flags := withZS (s.a &&& g.value) s.flags }) ∧
    ((Instr.ora m).wellFormed = true →
      exec (.ora m) s = .next { g.state with a := s.a ||| g.value, flags := withZS (s.a ||| g.value) s.flags }) ∧
    ((Instr.eor m).wellFormed = true →
      exec (.eor m) s = .next { g.state with a := s.a ^^^ g.value, flags := withZS (s.a ^^^ g.value) s.flags }) ∧
    ((Instr.bit m).wellFormed = true →
      exec (.bit m) s =
        .next { g.state with
          flags :=
            { s.flags with
              z := decide (s.a &&& g.value = 0), s := decide (128 ≤ g.value.toNat), v := decide (64 ≤ g.value.toNat % 128) } })

/-! Control flow. -/

/-- JMP (R220, R221): absolute goes to the operand; indirect to the 16-bit value at it, two cycles for the pointer's bytes (R128). -/
def Obligations.JumpsLoadThePc : Prop :=
  ∀ (w : Addr) (s : State),
    exec (.jmpAbs w) s = .next { s with pc := w } ∧
    exec (.jmpInd w) s =
      .next { (memReadWord w s).state with
        pc := (memReadWord w s).value, cyc := (memReadWord w s).state.cyc + 2 } ∧
    (s.isBound w = false → s.isBound (secondAddr s.cfg.wordReadPageWrap w) = false →
      exec (.jmpInd w) s = .next { s with pc := s.word w, cyc := s.cyc + 2 })

/-- JSR (R222): the address of its own last byte, PC - 1, goes to the stack, high byte at the higher place; SP - 2, two cycles, PC is
the target; no other cell, no other register, no flag changes. -/
def Obligations.JsrStacksItsLastByte : Prop :=
  ∀ (w : Addr) (s : State), ∃ t, exec (.jsr w) s = .next t ∧
    t.pc = w ∧ t.sp = s.sp - 2 ∧ t.cyc = s.cyc + 2 ∧
    t.peek (stackAddr s.sp) = hi8 (s.pc - 1) ∧ t.peek (stackAddr (s.sp - 1)) = lo8 (s.pc - 1) ∧
    (∀ a, a ≠ stackAddr s.sp → a ≠ stackAddr (s.sp - 1) → t.peek a = s.peek a) ∧
    t.a = s.a ∧ t.x = s.x ∧ t.y = s.y ∧ t.flags = s.flags ∧ KeepsTheRest s t ∧ KeepsTheOutside s t

/-- RTS and RTI (R223, R224): RTS pulls the low byte, then the high byte, and adds 1; RTI pulls the flags, B and R forced to 1, then
PC, and adds nothing; SP up by 2 and 3, two and three cycles. -/
def Obligations.ReturnsPullThePc : Prop :=
  ∀ s : State,
    exec .rts s =
      .next { s with
        sp := s.sp + 2, cyc := s.cyc + 2
        pc := join (s.peek (stackAddr (s.sp + 2))) (s.peek (stackAddr (s.sp + 1))) + 1 } ∧
    exec .rti s =
      .next { s with
        sp := s.sp + 3, cyc := s.cyc + 3
        flags := Flags.unpack (s.peek (stackAddr (s.sp + 1)))
        pc := join (s.peek (stackAddr (s.sp + 3))) (s.peek (stackAddr (s.sp + 2))) }

/-- RTS after JSR (R222, R223), wherever the subroutine ran to: PC is the address after the JSR, SP as before it. -/
def Obligations.RtsReturnsAfterTheJsr : Prop :=
  ∀ (w p : Addr) (s t u : State), exec (.jsr w) s = .next t → exec .rts (t.setPc p) = .next u →
    u.pc = s.pc ∧ u.sp = s.sp ∧ u.flags = s.flags ∧ u.a = s.a ∧ u.x = s.x ∧ u.y = s.y

/-- BRK (R225): it latches the request, whatever I and the slot are, and skips BRK_SKIP bytes; nothing is pushed, no flag changes. -/
def Obligations.BrkLatchesTheRequest : Prop :=
  ∀ s : State,
    exec .brk s = .next { s with pending := some .brk, pc := s.pc + BitVec.ofNat 16 s.cfg.brkSkip.toNat }

/-- The eight branches (R226 to R234): where the condition holds, one cycle more and PC plus the signed offset modulo 65536; where it
does not, nothing. -/
def Obligations.BranchesAddTheSignedOffset : Prop :=
  ∀ (rel : Byte) (s : State),
    let after (taken : Bool) : State :=
      if taken then { s with pc := BitVec.ofInt 16 (s.pc.toNat + rel.toInt), cyc := s.cyc + 1 } else s
    exec (.bcc rel) s = .next (after (!s.flags.c)) ∧
    exec (.bcs rel) s = .next (after s.flags.c) ∧
    exec (.beq rel) s = .next (after s.flags.z) ∧
    exec (.bne rel) s = .next (after (!s.flags.z)) ∧
    exec (.bmi rel) s = .next (after s.flags.s) ∧
    exec (.bpl rel) s = .next (after (!s.flags.s)) ∧
    exec (.bvc rel) s = .next (after (!s.flags.v)) ∧
    exec (.bvs rel) s = .next (after s.flags.v)

/-! Flag instructions, NOP, UNREC. -/

/-- CLC, SEC, CLI, SEI, CLD, SED, CLV (R250 to R256) write their one flag and nothing else; NOP (R257) nothing. -/
def Obligations.FlagInstructionsWriteOneFlag : Prop :=
  ∀ s : State,
    exec .clc s = .next { s with flags := { s.flags with c := false } } ∧
    exec .sec s = .next { s with flags := { s.flags with c := true } } ∧
    exec .cli s = .next { s with flags := { s.flags with i := false } } ∧
    exec .sei s = .next { s with flags := { s.flags with i := true } } ∧
    exec .cld s = .next { s with flags := { s.flags with d := false } } ∧
    exec .sed s = .next { s with flags := { s.flags with d := true } } ∧
    exec .clv s = .next { s with flags := { s.flags with v := false } } ∧
    exec .nop s = .next s

/-- UNREC (R259, R260): the instruction of a byte that RECOGNIZED does not hold appends the event with the byte and the address it was
fetched from, the one before PC, and nothing else changes; where such a byte stands at PC, the instruction part of the Tick moves PC by one,
counts one cycle (and EXTRA_COST) and appends that event; nothing else changes. -/
def Obligations.UnrecognizedByteOnlyEmitsItsEvent : Prop :=
  ∀ (op : Byte) (s : State), op ∉ s.cfg.recognized →
    exec (.unrec op) s = .next { s with diag := s.diag ++ [{ op := op, addr := s.pc - 1 }] } ∧
    (s.isBound s.pc = false → s.peek s.pc = op →
      stepInstr s =
        .next { s with
          pc := s.pc + 1, cyc := s.cyc + 1 + extraCost s.cfg.extraCost op
          diag := s.diag ++ [{ op := op, addr := s.pc }] })

/-! What an instruction leaves unchanged: the writers of each piece of state. -/

/-- A, X, Y and SP are written by the instructions R20 and R21 list for them, and by no other. -/
def Obligations.OnlyTheListedInstructionsWriteRegisters : Prop :=
  ∀ (i : Instr) (s t : State), exec i s = .next t →
    (t.a ≠ s.a →
      i = .txa ∨ i = .tya ∨ i = .pla ∨ i = .asl .acc ∨ i = .lsr .acc ∨ i = .rol .acc ∨ i = .ror .acc ∨
      ∃ m, i = .lda m ∨ i = .adc m ∨ i = .sbc m ∨ i = .and m ∨ i = .ora m ∨ i = .eor m) ∧
    (t.x ≠ s.x → i = .tax ∨ i = .tsx ∨ i = .inx ∨ i = .dex ∨ ∃ m, i = .ldx m) ∧
    (t.y ≠ s.y → i = .tay ∨ i = .iny ∨ i = .dey ∨ ∃ m, i = .ldy m) ∧
    (t.sp ≠ s.sp →
      i = .txs ∨ i = .pha ∨ i = .php ∨ i = .pla ∨ i = .plp ∨ i = .rts ∨ i = .rti ∨ ∃ w, i = .jsr w)

/-- Each flag is written by the instructions R25 to R34 list for it, and by no other; no instruction clears B or R. -/
def Obligations.OnlyTheListedInstructionsWriteFlags : Prop :=
  ∀ (i : Instr) (s t : State), exec i s = .next t →
    (t.flags.c ≠ s.flags.c →
      i = .clc ∨ i = .sec ∨ i = .plp ∨ i = .rti ∨
      ∃ m, i = .adc m ∨ i = .sbc m ∨ i = .cmp m ∨ i = .cpx m ∨ i = .cpy m ∨ i = .asl m ∨ i = .lsr m ∨ i = .rol m ∨ i = .ror m) ∧
    (t.flags.i ≠ s.flags.i → i = .cli ∨ i = .sei ∨ i = .plp ∨ i = .rti) ∧
    (t.flags.d ≠ s.flags.d → i = .cld ∨ i = .sed ∨ i = .plp ∨ i = .rti) ∧
    (t.flags.b ≠ s.flags.b → t.flags.b = true ∧ (i = .plp ∨ i = .rti)) ∧
    (t.flags.r ≠ s.flags.r → t.flags.r = true ∧ (i = .plp ∨ i = .rti)) ∧
    (t.flags.v ≠ s.flags.v →
      i = .clv ∨ i = .plp ∨ i = .rti ∨ (∃ m, i = .bit m) ∨ (s.flags.d = false ∧ ∃ m, i = .adc m ∨ i = .sbc m)) ∧
    (t.flags.z ≠ s.flags.z ∨ t.flags.s ≠ s.flags.s →
      (∀ m, i ≠ .sta m ∧ i ≠ .stx m ∧ i ≠ .sty m) ∧ (∀ w, i ≠ .jmpAbs w ∧ i ≠ .jmpInd w ∧ i ≠ .jsr w) ∧
      (∀ r, i ≠ .bcc r ∧ i ≠ .bcs r ∧ i ≠ .beq r ∧ i ≠ .bne r ∧ i ≠ .bmi r ∧ i ≠ .bpl r ∧ i ≠ .bvc r ∧ i ≠ .bvs r) ∧
      i ≠ .txs ∧ i ≠ .pha ∧ i ≠ .php ∧ i ≠ .rts ∧ i ≠ .brk ∧ i ≠ .nop ∧ (∀ op, i ≠ .unrec op) ∧
      i ≠ .clc ∧ i ≠ .sec ∧ i ≠ .cli ∧ i ≠ .sei ∧ i ≠ .cld ∧ i ≠ .sed ∧ i ≠ .clv)

/-- The instructions that store (R77, R70): STA, STX, STY, the memory forms of the read-modify-writes, PHA, PHP, JSR. -/
def stores (i : Instr) : Bool :=
  match i with
  | .sta _ | .stx _ | .sty _ | .inc _ | .dec _ | .pha | .php | .jsr _ => true
  | .asl m | .lsr m | .rol m | .ror m => m != .acc
  | _ => false

/-- An instruction that does not store leaves every byte of MEM (R77, R160 to R163, R257, R259). -/
def Obligations.OnlyStoringInstructionsChangeMemory : Prop :=
  ∀ (i : Instr) (s t : State), exec i s = .next t → stores i = false → ∀ a, t.peek a = s.peek a

/-- No instruction writes the counters of the peripherals and of pacing, the helper's returns or the configuration (R37, R41, R42), none
but UNREC the diagnostic output (R44); and where no offset is bound, none but BRK writes the slot (R36), and none touches the
environment, the device events or, decimal ADC and SBC apart, the free values. -/
def Obligations.InstructionsLeaveTheOutside : Prop :=
  ∀ (i : Instr) (s t : State), exec i s = .next t →
    t.peripherals = s.peripherals ∧ t.paceAcc = s.paceAcc ∧ t.crossed = s.crossed ∧ t.cfg = s.cfg ∧ s.cyc ≤ t.cyc ∧
    ((∀ op, i ≠ .unrec op) → t.diag = s.diag) ∧
    (s.cfg.bound = [] →
      (i ≠ .brk → t.pending = s.pending) ∧ t.env = s.env ∧ t.devEvents = s.devEvents ∧
      ((∀ m, i ≠ .adc m ∧ i ≠ .sbc m) ∨ s.flags.d = false → t.draws = s.draws))

/-! Timing, peripherals, pacing. -/

/-- The cycles of an instruction (R129, R131, R325): where its bytes stand at PC, the instruction part of the Tick counts what the class
table of R325 says, one more for a taken branch, and EXTRA_COST of its opcode; neither the operand's value nor a page crossing matters. -/
def Obligations.InstructionsCostTheirCycles : Prop :=
  ∀ (s : State) (i : Instr) (op : Byte) (rest : List Byte), s.codeAt i (op :: rest) →
    ∃ t, stepInstr s = .next t ∧
      t.cyc = s.cyc + instrCycles i (branchTaken i s.flags) + extraCost s.cfg.extraCost op

/-- The divisor helper (R291): the delta is added; if the divisor is reached it is subtracted once and true is returned, else false; a
zero delta changes nothing below the divisor (R292). -/
def Obligations.DivisorHelperCarriesTheRemainder : Prop :=
  ∀ (p : Peripheral) (delta : Nat),
    ((cross p delta).returned = true ↔ p.divisor.val ≤ p.acc + delta) ∧
    (cross p delta).peripheral.acc + (if (cross p delta).returned then p.divisor.val else 0) = p.acc + delta ∧
    (cross p delta).peripheral.divisor = p.divisor ∧ (cross p delta).peripheral.usesHelper = p.usesHelper ∧
    (p.acc < p.divisor.val → (cross p 0).peripheral = p ∧ (cross p 0).returned = false)

/-- The end of a Tick (R285, R290, R296): every peripheral that uses the helper is told the Tick's total, then the pacing accumulator takes
it and loses the budget, once, if it is strictly above; registers, flags, PC, memory and the counter are left. The budget is the integer
quotient of CLOCK_HZ and REFRESH_HZ (R295: the spec's own decision D25). How a peripheral uses the helper, and the list of its answers,
are the model's (log entries 11 and 12). -/
def Obligations.EndOfTickReportsTheTotal : Prop :=
  ∀ s : State,
    (endTick s).peripherals =
      s.peripherals.map (fun p => if p.usesHelper then (cross p s.cyc).peripheral else p) ∧
    (endTick s).crossed = s.peripherals.map (fun p => p.usesHelper && (cross p s.cyc).returned) ∧
    (endTick s).paceAcc =
      (if s.cfg.clockHz.val / s.cfg.refreshHz.val < s.paceAcc + s.cyc
        then s.paceAcc + s.cyc - s.cfg.clockHz.val / s.cfg.refreshHz.val else s.paceAcc + s.cyc) ∧
    (s.env.ticks = [] → (endTick s).pending = s.pending) ∧
    (∀ calls rest, s.env.ticks = calls :: rest →
      (endTick s).pending = (signalAll (calls.map PeripheralRequest.kind) s).pending ∧ (endTick s).env.ticks = rest) ∧
    (endTick s).a = s.a ∧ (endTick s).x = s.x ∧ (endTick s).y = s.y ∧ (endTick s).sp = s.sp ∧ (endTick s).pc = s.pc ∧
    (endTick s).flags = s.flags ∧ (endTick s).mem = s.mem ∧ (endTick s).cyc = s.cyc ∧ (endTick s).cfg = s.cfg
end

