-- ==== Sys2Proof/Laws/Bits.lean ====
section
/-! SUPPORT. The helpers of R8, and which addresses can never be bound register-page offsets. -/

namespace Sys2Proof

@[simp] theorem hi8_join (h l : Byte) : hi8 (join h l) = h := by
  ext i hi; simp [hi8, join]; grind

@[simp] theorem lo8_join (h l : Byte) : lo8 (join h l) = l := by
  ext i hi; simp [lo8, join]; grind

@[simp] theorem join_hi8_lo8 (w : Addr) : join (hi8 w) (lo8 w) = w := by
  ext i hi; simp [hi8, lo8, join]; grind

theorem join_inj {h l h' l' : Byte} : join h l = join h' l' ↔ h = h' ∧ l = l' := by
  constructor
  · intro e; exact ⟨by simpa using congrArg hi8 e, by simpa using congrArg lo8 e⟩
  · rintro ⟨rfl, rfl⟩; rfl

theorem join_toNat (h l : Byte) : (join h l).toNat = h.toNat * 256 + l.toNat := by
  simp only [join, BitVec.toNat_append, Nat.shiftLeft_eq]
  rw [mul_comm, ← Nat.two_pow_add_eq_or_of_lt l.isLt, mul_comm]

@[simp] theorem zext16_toNat (b : Byte) : (zext16 b).toNat = b.toNat := by
  simp [zext16]; omega

theorem zext16_eq_join (b : Byte) : zext16 b = join 0 b := by
  apply BitVec.eq_of_toNat_eq; simp [join_toNat]

@[simp] theorem hi8_zext16 (b : Byte) : hi8 (zext16 b) = 0 := by simp [zext16_eq_join]

namespace Machine

theorem stackAddr_eq_join (sp : Byte) : stackAddr sp = join 1 sp := by
  apply BitVec.eq_of_toNat_eq; simp [stackAddr, join_toNat]; omega

@[simp] theorem stackAddr_inj {p q : Byte} : stackAddr p = stackAddr q ↔ p = q := by
  simp [stackAddr_eq_join, join_inj]

/-- Only page 0xFD holds bound offsets. -/
theorem isBound_of_page {s : State} {a : Addr} (h : hi8 a ≠ 0xFD) : s.isBound a = false := by
  rw [State.isBound, beq_eq_false_iff_ne.mpr h, Bool.false_and]

@[simp] theorem isBound_zext16 (s : State) (b : Byte) : s.isBound (zext16 b) = false :=
  isBound_of_page (by simp)

@[simp] theorem isBound_stackAddr (s : State) (sp : Byte) : s.isBound (stackAddr sp) = false :=
  isBound_of_page (by simp [stackAddr_eq_join])

theorem hi8_secondAddr_zext16 (w : Bool) (b : Byte) :
    hi8 (secondAddr w (zext16 b)) = 0 ∨ hi8 (secondAddr w (zext16 b)) = 1 := by
  revert w b; decide

@[simp] theorem isBound_secondAddr_zext16 (s : State) (w : Bool) (b : Byte) :
    s.isBound (secondAddr w (zext16 b)) = false :=
  isBound_of_page (by rcases hi8_secondAddr_zext16 w b with h | h <;> simp [h])

@[simp] theorem isBound_vector (s : State) (k : IntKind) : s.isBound (vector k) = false :=
  isBound_of_page (by cases k <;> decide)

@[simp] theorem isBound_secondAddr_vector (s : State) (w : Bool) (k : IntKind) :
    s.isBound (secondAddr w (vector k)) = false :=
  isBound_of_page (by cases k <;> cases w <;> decide)

theorem stackAddr_ne_of_page {a : Addr} {sp : Byte} (h : hi8 a ≠ 1) : a ≠ stackAddr sp := by
  rintro rfl; simp [stackAddr_eq_join] at h

end Machine

end Sys2Proof
end

