-- ==== Sys2Proof/Laws/Memory.lean ====
section
/-! SUPPORT. The laws of MEM: what a read sees after a write, and the canonical form. -/

namespace Sys2Proof.Machine

theorem Memory.read_erase (m : Memory) (a b : Nat) :
    (m.erase a).read b = if b = a then Memory.unlisted else m.read b := by
  induction m with
  | nil => simp [Memory.erase, Memory.read]
  | cons e m ih => obtain ⟨k, w⟩ := e; simp only [Memory.erase]; split_ifs <;> simp_all [Memory.read]; grind

theorem Memory.read_insert (m : Memory) (a b : Nat) (v : Byte) :
    (m.insert a v).read b = if b = a then v else m.read b := by
  induction m with
  | nil => simp [Memory.insert, Memory.read, eq_comm]
  | cons e m ih => obtain ⟨k, w⟩ := e; simp only [Memory.insert]; split_ifs <;> simp_all [Memory.read] <;> grind

/-- A read after a write sees the byte at its address, and every other byte as it was. -/
theorem Memory.read_write (m : Memory) (a b : Nat) (v : Byte) :
    (m.write a v).read b = if b = a then v else m.read b := by
  unfold Memory.write
  split_ifs with h <;> simp_all [Memory.read_erase, Memory.read_insert]

/-! The canonical form. -/

theorem Memory.wfFrom_mono {m : Memory} {lo lo' : Nat} (h : Memory.wfFrom lo m = true) (hl : lo' ≤ lo) :
    Memory.wfFrom lo' m = true := by
  cases m with
  | nil => rfl
  | cons e m => obtain ⟨k, w⟩ := e; simp only [Memory.wfFrom, Bool.and_eq_true, decide_eq_true_eq] at h ⊢; grind

theorem Memory.wfFrom_erase {m : Memory} {lo : Nat} (a : Nat) (h : Memory.wfFrom lo m = true) :
    Memory.wfFrom lo (m.erase a) = true := by
  induction m generalizing lo with
  | nil => rfl
  | cons e m ih =>
    obtain ⟨k, w⟩ := e
    simp only [Memory.wfFrom, Bool.and_eq_true, decide_eq_true_eq] at h
    simp only [Memory.erase]
    split_ifs with hk
    · exact Memory.wfFrom_mono (ih h.2) (by omega)
    · simp [Memory.wfFrom, h.1, ih h.2]

theorem Memory.wfFrom_insert {m : Memory} {lo a : Nat} {v : Byte} (hv : v ≠ Memory.unlisted) (hlo : lo ≤ a)
    (ha : a < 65536) (h : Memory.wfFrom lo m = true) : Memory.wfFrom lo (m.insert a v) = true := by
  induction m generalizing lo with
  | nil => simp [Memory.insert, Memory.wfFrom, hv, hlo, ha]
  | cons e m ih =>
    obtain ⟨k, w⟩ := e
    simp only [Memory.wfFrom, Bool.and_eq_true, decide_eq_true_eq] at h
    simp only [Memory.insert]
    split_ifs with h1 h2
    · simp [Memory.wfFrom, hv, hlo, ha, h]; grind
    · subst h2; simp [Memory.wfFrom, hv, hlo, ha, h]
    · have := ih (lo := k + 1) (by omega) h.2
      simp [Memory.wfFrom, this]; grind

/-- A write to an address of the machine keeps the canonical form. -/
theorem Memory.wf_write {m : Memory} {a : Nat} {v : Byte} (ha : a < 65536) (h : m.wf = true) : (m.write a v).wf = true := by
  unfold Memory.write Memory.wf
  split_ifs with hv
  · exact Memory.wfFrom_erase a h
  · exact Memory.wfFrom_insert hv (Nat.zero_le a) ha h

/-- Copying an image that fits keeps the canonical form. -/
theorem Memory.wf_load {m : Memory} {a : Nat} {image : List Byte} (ha : a + image.length ≤ 65536) (h : m.wf = true) :
    (Memory.load m a image).wf = true := by
  induction image generalizing m a with
  | nil => exact h
  | cons v rest ih =>
    simp only [List.length_cons] at ha
    exact ih (by omega) (Memory.wf_write (by omega) h)

theorem Memory.read_lt_wfFrom {m : Memory} {lo a : Nat} (h : Memory.wfFrom lo m = true) (ha : a < lo) :
    m.read a = Memory.unlisted := by
  induction m generalizing lo with
  | nil => rfl
  | cons e m ih =>
    obtain ⟨k, w⟩ := e
    simp only [Memory.wfFrom, Bool.and_eq_true, decide_eq_true_eq] at h
    simp only [Memory.read]
    rw [if_neg (by omega)]
    exact ih h.2 (by omega)

theorem Memory.eq_of_read_eq {m n : Memory} {lo : Nat} (hm : Memory.wfFrom lo m = true) (hn : Memory.wfFrom lo n = true)
    (h : ∀ a, m.read a = n.read a) : m = n := by
  induction m generalizing n lo with
  | nil =>
    cases n with
    | nil => rfl
    | cons e n =>
      obtain ⟨k, w⟩ := e
      have := h k
      simp [Memory.wfFrom] at hn
      simp [Memory.read] at this
      grind
  | cons e m ih =>
    obtain ⟨k, w⟩ := e
    cases n with
    | nil =>
      have := h k
      simp [Memory.wfFrom] at hm
      simp [Memory.read] at this
      grind
    | cons e' n =>
      obtain ⟨k', w'⟩ := e'
      simp only [Memory.wfFrom, Bool.and_eq_true, decide_eq_true_eq, bne_iff_ne] at hm hn
      have hk : k = k' := by
        rcases Nat.lt_trichotomy k k' with hlt | heq | hgt
        · have h1 := h k
          simp only [Memory.read, if_true] at h1
          rw [if_neg (by omega), Memory.read_lt_wfFrom hn.2 (by omega)] at h1
          exact absurd h1 hm.1.2
        · exact heq
        · have h1 := h k'
          simp only [Memory.read, if_true] at h1
          rw [if_neg (by omega), Memory.read_lt_wfFrom hm.2 (by omega)] at h1
          exact absurd h1.symm hn.1.2
      subst hk
      have hw : w = w' := by have := h k; simpa [Memory.read] using this
      subst hw
      have : m = n := by
        refine ih (lo := k + 1) hm.2 hn.2 fun a => ?_
        rcases Nat.lt_or_ge a (k + 1) with ha | ha
        · rw [Memory.read_lt_wfFrom hm.2 ha, Memory.read_lt_wfFrom hn.2 ha]
        · have h1 := h a
          simp only [Memory.read] at h1
          rwa [if_neg (by omega), if_neg (by omega)] at h1
      rw [this]

/-- Memories in canonical form that read alike are the same list. -/
theorem Memory.wf_ext {m n : Memory} (hm : m.wf = true) (hn : n.wf = true) (h : ∀ a, m.read a = n.read a) : m = n :=
  Memory.eq_of_read_eq hm hn h

/-- The memory of the reset state is in canonical form. -/
theorem State.reset_mem_canonical : State.reset.mem.wf = true := rfl

/-- What `peek` sees after `poke`. -/
theorem State.poke_peek (s : State) (a b : Addr) (v : Byte) : (s.poke a v).peek b = if b = a then v else s.peek b := by
  simp only [State.peek, State.poke, Memory.read_write, BitVec.toNat_inj]

end Sys2Proof.Machine
end

