-- ==== Sys2Proof/Laws/State.lean ====
section
/-! SUPPORT. One lemma per field per update of the state, each true by rfl, and what the updates do to `peek` and `isBound`. -/

namespace Sys2Proof.Machine

section addCyc
variable (s : State) (n : Nat)

@[simp] theorem State.addCyc_a : (s.addCyc n).a = s.a := rfl
@[simp] theorem State.addCyc_x : (s.addCyc n).x = s.x := rfl
@[simp] theorem State.addCyc_y : (s.addCyc n).y = s.y := rfl
@[simp] theorem State.addCyc_sp : (s.addCyc n).sp = s.sp := rfl
@[simp] theorem State.addCyc_pc : (s.addCyc n).pc = s.pc := rfl
@[simp] theorem State.addCyc_flags : (s.addCyc n).flags = s.flags := rfl
@[simp] theorem State.addCyc_pending : (s.addCyc n).pending = s.pending := rfl
@[simp] theorem State.addCyc_mem : (s.addCyc n).mem = s.mem := rfl
@[simp] theorem State.addCyc_cyc : (s.addCyc n).cyc = s.cyc + n := rfl
@[simp] theorem State.addCyc_peripherals : (s.addCyc n).peripherals = s.peripherals := rfl
@[simp] theorem State.addCyc_paceAcc : (s.addCyc n).paceAcc = s.paceAcc := rfl
@[simp] theorem State.addCyc_diag : (s.addCyc n).diag = s.diag := rfl
@[simp] theorem State.addCyc_devEvents : (s.addCyc n).devEvents = s.devEvents := rfl
@[simp] theorem State.addCyc_crossed : (s.addCyc n).crossed = s.crossed := rfl
@[simp] theorem State.addCyc_env : (s.addCyc n).env = s.env := rfl
@[simp] theorem State.addCyc_draws : (s.addCyc n).draws = s.draws := rfl
@[simp] theorem State.addCyc_cfg : (s.addCyc n).cfg = s.cfg := rfl
@[simp] theorem State.addCyc_peek (a : Addr) : (s.addCyc n).peek a = s.peek a := rfl
@[simp] theorem State.addCyc_isBound (a : Addr) : (s.addCyc n).isBound a = s.isBound a := rfl

end addCyc

section setA
variable (s : State) (v : Byte)

@[simp] theorem State.setA_a : (s.setA v).a = v := rfl
@[simp] theorem State.setA_x : (s.setA v).x = s.x := rfl
@[simp] theorem State.setA_y : (s.setA v).y = s.y := rfl
@[simp] theorem State.setA_sp : (s.setA v).sp = s.sp := rfl
@[simp] theorem State.setA_pc : (s.setA v).pc = s.pc := rfl
@[simp] theorem State.setA_flags : (s.setA v).flags = s.flags := rfl
@[simp] theorem State.setA_pending : (s.setA v).pending = s.pending := rfl
@[simp] theorem State.setA_mem : (s.setA v).mem = s.mem := rfl
@[simp] theorem State.setA_cyc : (s.setA v).cyc = s.cyc := rfl
@[simp] theorem State.setA_peripherals : (s.setA v).peripherals = s.peripherals := rfl
@[simp] theorem State.setA_paceAcc : (s.setA v).paceAcc = s.paceAcc := rfl
@[simp] theorem State.setA_diag : (s.setA v).diag = s.diag := rfl
@[simp] theorem State.setA_devEvents : (s.setA v).devEvents = s.devEvents := rfl
@[simp] theorem State.setA_crossed : (s.setA v).crossed = s.crossed := rfl
@[simp] theorem State.setA_env : (s.setA v).env = s.env := rfl
@[simp] theorem State.setA_draws : (s.setA v).draws = s.draws := rfl
@[simp] theorem State.setA_cfg : (s.setA v).cfg = s.cfg := rfl
@[simp] theorem State.setA_peek (a : Addr) : (s.setA v).peek a = s.peek a := rfl
@[simp] theorem State.setA_isBound (a : Addr) : (s.setA v).isBound a = s.isBound a := rfl

end setA

section setX
variable (s : State) (v : Byte)

@[simp] theorem State.setX_a : (s.setX v).a = s.a := rfl
@[simp] theorem State.setX_x : (s.setX v).x = v := rfl
@[simp] theorem State.setX_y : (s.setX v).y = s.y := rfl
@[simp] theorem State.setX_sp : (s.setX v).sp = s.sp := rfl
@[simp] theorem State.setX_pc : (s.setX v).pc = s.pc := rfl
@[simp] theorem State.setX_flags : (s.setX v).flags = s.flags := rfl
@[simp] theorem State.setX_pending : (s.setX v).pending = s.pending := rfl
@[simp] theorem State.setX_mem : (s.setX v).mem = s.mem := rfl
@[simp] theorem State.setX_cyc : (s.setX v).cyc = s.cyc := rfl
@[simp] theorem State.setX_peripherals : (s.setX v).peripherals = s.peripherals := rfl
@[simp] theorem State.setX_paceAcc : (s.setX v).paceAcc = s.paceAcc := rfl
@[simp] theorem State.setX_diag : (s.setX v).diag = s.diag := rfl
@[simp] theorem State.setX_devEvents : (s.setX v).devEvents = s.devEvents := rfl
@[simp] theorem State.setX_crossed : (s.setX v).crossed = s.crossed := rfl
@[simp] theorem State.setX_env : (s.setX v).env = s.env := rfl
@[simp] theorem State.setX_draws : (s.setX v).draws = s.draws := rfl
@[simp] theorem State.setX_cfg : (s.setX v).cfg = s.cfg := rfl
@[simp] theorem State.setX_peek (a : Addr) : (s.setX v).peek a = s.peek a := rfl
@[simp] theorem State.setX_isBound (a : Addr) : (s.setX v).isBound a = s.isBound a := rfl

end setX

section setY
variable (s : State) (v : Byte)

@[simp] theorem State.setY_a : (s.setY v).a = s.a := rfl
@[simp] theorem State.setY_x : (s.setY v).x = s.x := rfl
@[simp] theorem State.setY_y : (s.setY v).y = v := rfl
@[simp] theorem State.setY_sp : (s.setY v).sp = s.sp := rfl
@[simp] theorem State.setY_pc : (s.setY v).pc = s.pc := rfl
@[simp] theorem State.setY_flags : (s.setY v).flags = s.flags := rfl
@[simp] theorem State.setY_pending : (s.setY v).pending = s.pending := rfl
@[simp] theorem State.setY_mem : (s.setY v).mem = s.mem := rfl
@[simp] theorem State.setY_cyc : (s.setY v).cyc = s.cyc := rfl
@[simp] theorem State.setY_peripherals : (s.setY v).peripherals = s.peripherals := rfl
@[simp] theorem State.setY_paceAcc : (s.setY v).paceAcc = s.paceAcc := rfl
@[simp] theorem State.setY_diag : (s.setY v).diag = s.diag := rfl
@[simp] theorem State.setY_devEvents : (s.setY v).devEvents = s.devEvents := rfl
@[simp] theorem State.setY_crossed : (s.setY v).crossed = s.crossed := rfl
@[simp] theorem State.setY_env : (s.setY v).env = s.env := rfl
@[simp] theorem State.setY_draws : (s.setY v).draws = s.draws := rfl
@[simp] theorem State.setY_cfg : (s.setY v).cfg = s.cfg := rfl
@[simp] theorem State.setY_peek (a : Addr) : (s.setY v).peek a = s.peek a := rfl
@[simp] theorem State.setY_isBound (a : Addr) : (s.setY v).isBound a = s.isBound a := rfl

end setY

section setSp
variable (s : State) (v : Byte)

@[simp] theorem State.setSp_a : (s.setSp v).a = s.a := rfl
@[simp] theorem State.setSp_x : (s.setSp v).x = s.x := rfl
@[simp] theorem State.setSp_y : (s.setSp v).y = s.y := rfl
@[simp] theorem State.setSp_sp : (s.setSp v).sp = v := rfl
@[simp] theorem State.setSp_pc : (s.setSp v).pc = s.pc := rfl
@[simp] theorem State.setSp_flags : (s.setSp v).flags = s.flags := rfl
@[simp] theorem State.setSp_pending : (s.setSp v).pending = s.pending := rfl
@[simp] theorem State.setSp_mem : (s.setSp v).mem = s.mem := rfl
@[simp] theorem State.setSp_cyc : (s.setSp v).cyc = s.cyc := rfl
@[simp] theorem State.setSp_peripherals : (s.setSp v).peripherals = s.peripherals := rfl
@[simp] theorem State.setSp_paceAcc : (s.setSp v).paceAcc = s.paceAcc := rfl
@[simp] theorem State.setSp_diag : (s.setSp v).diag = s.diag := rfl
@[simp] theorem State.setSp_devEvents : (s.setSp v).devEvents = s.devEvents := rfl
@[simp] theorem State.setSp_crossed : (s.setSp v).crossed = s.crossed := rfl
@[simp] theorem State.setSp_env : (s.setSp v).env = s.env := rfl
@[simp] theorem State.setSp_draws : (s.setSp v).draws = s.draws := rfl
@[simp] theorem State.setSp_cfg : (s.setSp v).cfg = s.cfg := rfl
@[simp] theorem State.setSp_peek (a : Addr) : (s.setSp v).peek a = s.peek a := rfl
@[simp] theorem State.setSp_isBound (a : Addr) : (s.setSp v).isBound a = s.isBound a := rfl

end setSp

section setPc
variable (s : State) (w : Addr)

@[simp] theorem State.setPc_a : (s.setPc w).a = s.a := rfl
@[simp] theorem State.setPc_x : (s.setPc w).x = s.x := rfl
@[simp] theorem State.setPc_y : (s.setPc w).y = s.y := rfl
@[simp] theorem State.setPc_sp : (s.setPc w).sp = s.sp := rfl
@[simp] theorem State.setPc_pc : (s.setPc w).pc = w := rfl
@[simp] theorem State.setPc_flags : (s.setPc w).flags = s.flags := rfl
@[simp] theorem State.setPc_pending : (s.setPc w).pending = s.pending := rfl
@[simp] theorem State.setPc_mem : (s.setPc w).mem = s.mem := rfl
@[simp] theorem State.setPc_cyc : (s.setPc w).cyc = s.cyc := rfl
@[simp] theorem State.setPc_peripherals : (s.setPc w).peripherals = s.peripherals := rfl
@[simp] theorem State.setPc_paceAcc : (s.setPc w).paceAcc = s.paceAcc := rfl
@[simp] theorem State.setPc_diag : (s.setPc w).diag = s.diag := rfl
@[simp] theorem State.setPc_devEvents : (s.setPc w).devEvents = s.devEvents := rfl
@[simp] theorem State.setPc_crossed : (s.setPc w).crossed = s.crossed := rfl
@[simp] theorem State.setPc_env : (s.setPc w).env = s.env := rfl
@[simp] theorem State.setPc_draws : (s.setPc w).draws = s.draws := rfl
@[simp] theorem State.setPc_cfg : (s.setPc w).cfg = s.cfg := rfl
@[simp] theorem State.setPc_peek (a : Addr) : (s.setPc w).peek a = s.peek a := rfl
@[simp] theorem State.setPc_isBound (a : Addr) : (s.setPc w).isBound a = s.isBound a := rfl

end setPc

section setFlags
variable (s : State) (f : Flags)

@[simp] theorem State.setFlags_a : (s.setFlags f).a = s.a := rfl
@[simp] theorem State.setFlags_x : (s.setFlags f).x = s.x := rfl
@[simp] theorem State.setFlags_y : (s.setFlags f).y = s.y := rfl
@[simp] theorem State.setFlags_sp : (s.setFlags f).sp = s.sp := rfl
@[simp] theorem State.setFlags_pc : (s.setFlags f).pc = s.pc := rfl
@[simp] theorem State.setFlags_flags : (s.setFlags f).flags = f := rfl
@[simp] theorem State.setFlags_pending : (s.setFlags f).pending = s.pending := rfl
@[simp] theorem State.setFlags_mem : (s.setFlags f).mem = s.mem := rfl
@[simp] theorem State.setFlags_cyc : (s.setFlags f).cyc = s.cyc := rfl
@[simp] theorem State.setFlags_peripherals : (s.setFlags f).peripherals = s.peripherals := rfl
@[simp] theorem State.setFlags_paceAcc : (s.setFlags f).paceAcc = s.paceAcc := rfl
@[simp] theorem State.setFlags_diag : (s.setFlags f).diag = s.diag := rfl
@[simp] theorem State.setFlags_devEvents : (s.setFlags f).devEvents = s.devEvents := rfl
@[simp] theorem State.setFlags_crossed : (s.setFlags f).crossed = s.crossed := rfl
@[simp] theorem State.setFlags_env : (s.setFlags f).env = s.env := rfl
@[simp] theorem State.setFlags_draws : (s.setFlags f).draws = s.draws := rfl
@[simp] theorem State.setFlags_cfg : (s.setFlags f).cfg = s.cfg := rfl
@[simp] theorem State.setFlags_peek (a : Addr) : (s.setFlags f).peek a = s.peek a := rfl
@[simp] theorem State.setFlags_isBound (a : Addr) : (s.setFlags f).isBound a = s.isBound a := rfl

end setFlags

section poke
variable (s : State) (b : Addr) (v : Byte)

@[simp] theorem State.poke_a : (s.poke b v).a = s.a := rfl
@[simp] theorem State.poke_x : (s.poke b v).x = s.x := rfl
@[simp] theorem State.poke_y : (s.poke b v).y = s.y := rfl
@[simp] theorem State.poke_sp : (s.poke b v).sp = s.sp := rfl
@[simp] theorem State.poke_pc : (s.poke b v).pc = s.pc := rfl
@[simp] theorem State.poke_flags : (s.poke b v).flags = s.flags := rfl
@[simp] theorem State.poke_pending : (s.poke b v).pending = s.pending := rfl
@[simp] theorem State.poke_mem : (s.poke b v).mem = s.mem.write b.toNat v := rfl
@[simp] theorem State.poke_cyc : (s.poke b v).cyc = s.cyc := rfl
@[simp] theorem State.poke_peripherals : (s.poke b v).peripherals = s.peripherals := rfl
@[simp] theorem State.poke_paceAcc : (s.poke b v).paceAcc = s.paceAcc := rfl
@[simp] theorem State.poke_diag : (s.poke b v).diag = s.diag := rfl
@[simp] theorem State.poke_devEvents : (s.poke b v).devEvents = s.devEvents := rfl
@[simp] theorem State.poke_crossed : (s.poke b v).crossed = s.crossed := rfl
@[simp] theorem State.poke_env : (s.poke b v).env = s.env := rfl
@[simp] theorem State.poke_draws : (s.poke b v).draws = s.draws := rfl
@[simp] theorem State.poke_cfg : (s.poke b v).cfg = s.cfg := rfl
@[simp] theorem State.poke_isBound (a : Addr) : (s.poke b v).isBound a = s.isBound a := rfl

end poke

section takeA
variable (s : State) (o : Outcome8)

@[simp] theorem State.takeA_a : (s.takeA o).a = o.value := rfl
@[simp] theorem State.takeA_x : (s.takeA o).x = s.x := rfl
@[simp] theorem State.takeA_y : (s.takeA o).y = s.y := rfl
@[simp] theorem State.takeA_sp : (s.takeA o).sp = s.sp := rfl
@[simp] theorem State.takeA_pc : (s.takeA o).pc = s.pc := rfl
@[simp] theorem State.takeA_flags : (s.takeA o).flags = o.flags := rfl
@[simp] theorem State.takeA_pending : (s.takeA o).pending = s.pending := rfl
@[simp] theorem State.takeA_mem : (s.takeA o).mem = s.mem := rfl
@[simp] theorem State.takeA_cyc : (s.takeA o).cyc = s.cyc := rfl
@[simp] theorem State.takeA_peripherals : (s.takeA o).peripherals = s.peripherals := rfl
@[simp] theorem State.takeA_paceAcc : (s.takeA o).paceAcc = s.paceAcc := rfl
@[simp] theorem State.takeA_diag : (s.takeA o).diag = s.diag := rfl
@[simp] theorem State.takeA_devEvents : (s.takeA o).devEvents = s.devEvents := rfl
@[simp] theorem State.takeA_crossed : (s.takeA o).crossed = s.crossed := rfl
@[simp] theorem State.takeA_env : (s.takeA o).env = s.env := rfl
@[simp] theorem State.takeA_draws : (s.takeA o).draws = s.draws := rfl
@[simp] theorem State.takeA_cfg : (s.takeA o).cfg = s.cfg := rfl
@[simp] theorem State.takeA_peek (a : Addr) : (s.takeA o).peek a = s.peek a := rfl

end takeA

section takeX
variable (s : State) (o : Outcome8)

@[simp] theorem State.takeX_a : (s.takeX o).a = s.a := rfl
@[simp] theorem State.takeX_x : (s.takeX o).x = o.value := rfl
@[simp] theorem State.takeX_y : (s.takeX o).y = s.y := rfl
@[simp] theorem State.takeX_sp : (s.takeX o).sp = s.sp := rfl
@[simp] theorem State.takeX_pc : (s.takeX o).pc = s.pc := rfl
@[simp] theorem State.takeX_flags : (s.takeX o).flags = o.flags := rfl
@[simp] theorem State.takeX_pending : (s.takeX o).pending = s.pending := rfl
@[simp] theorem State.takeX_mem : (s.takeX o).mem = s.mem := rfl
@[simp] theorem State.takeX_cyc : (s.takeX o).cyc = s.cyc := rfl
@[simp] theorem State.takeX_peripherals : (s.takeX o).peripherals = s.peripherals := rfl
@[simp] theorem State.takeX_paceAcc : (s.takeX o).paceAcc = s.paceAcc := rfl
@[simp] theorem State.takeX_diag : (s.takeX o).diag = s.diag := rfl
@[simp] theorem State.takeX_devEvents : (s.takeX o).devEvents = s.devEvents := rfl
@[simp] theorem State.takeX_crossed : (s.takeX o).crossed = s.crossed := rfl
@[simp] theorem State.takeX_env : (s.takeX o).env = s.env := rfl
@[simp] theorem State.takeX_draws : (s.takeX o).draws = s.draws := rfl
@[simp] theorem State.takeX_cfg : (s.takeX o).cfg = s.cfg := rfl
@[simp] theorem State.takeX_peek (a : Addr) : (s.takeX o).peek a = s.peek a := rfl

end takeX

section takeY
variable (s : State) (o : Outcome8)

@[simp] theorem State.takeY_a : (s.takeY o).a = s.a := rfl
@[simp] theorem State.takeY_x : (s.takeY o).x = s.x := rfl
@[simp] theorem State.takeY_y : (s.takeY o).y = o.value := rfl
@[simp] theorem State.takeY_sp : (s.takeY o).sp = s.sp := rfl
@[simp] theorem State.takeY_pc : (s.takeY o).pc = s.pc := rfl
@[simp] theorem State.takeY_flags : (s.takeY o).flags = o.flags := rfl
@[simp] theorem State.takeY_pending : (s.takeY o).pending = s.pending := rfl
@[simp] theorem State.takeY_mem : (s.takeY o).mem = s.mem := rfl
@[simp] theorem State.takeY_cyc : (s.takeY o).cyc = s.cyc := rfl
@[simp] theorem State.takeY_peripherals : (s.takeY o).peripherals = s.peripherals := rfl
@[simp] theorem State.takeY_paceAcc : (s.takeY o).paceAcc = s.paceAcc := rfl
@[simp] theorem State.takeY_diag : (s.takeY o).diag = s.diag := rfl
@[simp] theorem State.takeY_devEvents : (s.takeY o).devEvents = s.devEvents := rfl
@[simp] theorem State.takeY_crossed : (s.takeY o).crossed = s.crossed := rfl
@[simp] theorem State.takeY_env : (s.takeY o).env = s.env := rfl
@[simp] theorem State.takeY_draws : (s.takeY o).draws = s.draws := rfl
@[simp] theorem State.takeY_cfg : (s.takeY o).cfg = s.cfg := rfl
@[simp] theorem State.takeY_peek (a : Addr) : (s.takeY o).peek a = s.peek a := rfl

end takeY

/-- Two states with equal fields are equal. -/
@[ext] theorem State.ext_fields {s t : State} (ha : s.a = t.a) (hx : s.x = t.x) (hy : s.y = t.y) (hsp : s.sp = t.sp)
    (hpc : s.pc = t.pc) (hflags : s.flags = t.flags) (hpending : s.pending = t.pending) (hmem : s.mem = t.mem)
    (hcyc : s.cyc = t.cyc) (hperipherals : s.peripherals = t.peripherals) (hpace : s.paceAcc = t.paceAcc)
    (hdiag : s.diag = t.diag) (hdev : s.devEvents = t.devEvents) (hcrossed : s.crossed = t.crossed) (henv : s.env = t.env)
    (hdraws : s.draws = t.draws) (hcfg : s.cfg = t.cfg) : s = t := by
  cases s; cases t; simp_all

end Sys2Proof.Machine
end

