-- ==== Sys2Proof/Laws/Bus.lean ====
section
/-! SUPPORT. What the shared operations can do, each said once: requests, the bus, the stack, entry and return, the
resolver, the fetch, the ends of a Tick. -/

namespace Sys2Proof.Machine

/-! Requests. -/

/-- A request changes the pending slot and nothing else (R271). -/
theorem signalInterrupt_slot (k : IntKind) (s : State) : ∃ p, signalInterrupt k s = { s with pending := p } := by
  unfold signalInterrupt
  cases k
  · exact ⟨_, rfl⟩
  · exact ⟨_, rfl⟩
  · simp only; split_ifs
    · exact ⟨s.pending, rfl⟩
    · exact ⟨s.pending, rfl⟩
    · exact ⟨_, rfl⟩
  · exact ⟨_, rfl⟩

theorem signalAll_slot (ks : List IntKind) (s : State) : ∃ p, signalAll ks s = { s with pending := p } := by
  induction ks generalizing s with
  | nil => exact ⟨s.pending, rfl⟩
  | cons k ks ih =>
    obtain ⟨p, hp⟩ := signalInterrupt_slot k s
    obtain ⟨q, hq⟩ := ih { s with pending := p }
    exact ⟨q, by rw [signalAll, hp, hq]⟩

/-! Handlers (R64). -/

theorem HandlersOnly.refl (s : State) : HandlersOnly s s := ⟨s.pending, s.env.reads, s.env.writes, s.devEvents, s.draws, rfl⟩

theorem HandlersOnly.trans {s t u : State} (h : HandlersOnly s t) (h' : HandlersOnly t u) : HandlersOnly s u := by
  obtain ⟨p, r, w, d, n, rfl⟩ := h
  obtain ⟨p', r', w', d', n', rfl⟩ := h'
  exact ⟨p', r', w', d', n', rfl⟩

theorem signalRequests_only (rs : List PeripheralRequest) (s : State) : HandlersOnly s (signalRequests rs s) := by
  obtain ⟨p, hp⟩ := signalAll_slot (rs.map PeripheralRequest.kind) s
  exact ⟨p, s.env.reads, s.env.writes, s.devEvents, s.draws, by rw [signalRequests, hp]⟩

theorem deviceRead_only (o : Byte) (s : State) : HandlersOnly s (deviceRead o s).state := by
  unfold deviceRead
  split
  · exact HandlersOnly.trans ⟨s.pending, _, s.env.writes, _, s.draws, rfl⟩ (signalRequests_only _ _)
  · exact ⟨s.pending, s.env.reads, s.env.writes, _, _, rfl⟩

theorem deviceWrite_only (o v : Byte) (s : State) : HandlersOnly s (deviceWrite o v s) := by
  unfold deviceWrite
  split
  · exact HandlersOnly.trans ⟨s.pending, s.env.reads, _, _, s.draws, rfl⟩ (signalRequests_only _ _)
  · exact ⟨s.pending, s.env.reads, s.env.writes, _, s.draws, rfl⟩

/-! The bus. -/

theorem memRead_unbound {a : Addr} {s : State} (h : s.isBound a = false) : memRead a s = { value := s.peek a, state := s } := by
  simp [memRead, h]

theorem memWrite_unbound {a : Addr} {v : Byte} {s : State} (h : s.isBound a = false) : memWrite a v s = s.poke a v := by
  simp [memWrite, h]

theorem memRead_only (a : Addr) (s : State) : HandlersOnly s (memRead a s).state := by
  unfold memRead; split_ifs
  · exact deviceRead_only _ _
  · exact HandlersOnly.refl s

/-- A write either stores the byte (unbound) or runs a handler (bound). -/
theorem memWrite_cases (a : Addr) (v : Byte) (s : State) :
    (s.isBound a = false ∧ memWrite a v s = s.poke a v) ∨ (s.isBound a = true ∧ HandlersOnly s (memWrite a v s)) := by
  cases h : s.isBound a
  · exact .inl ⟨rfl, memWrite_unbound h⟩
  · refine .inr ⟨rfl, ?_⟩
    simp only [memWrite, h, if_true]
    exact deviceWrite_only _ _ _

theorem HandlersOnly.isBound {s t : State} (h : HandlersOnly s t) (a : Addr) : t.isBound a = s.isBound a := by
  obtain ⟨p, r, w, d, n, rfl⟩ := h; rfl

theorem HandlersOnly.peek {s t : State} (h : HandlersOnly s t) (a : Addr) : t.peek a = s.peek a := by
  obtain ⟨p, r, w, d, n, rfl⟩ := h; rfl

theorem memReadWord_unbound {a : Addr} {s : State} (h : s.isBound a = false)
    (h' : s.isBound (secondAddr s.cfg.wordReadPageWrap a) = false) :
    memReadWord a s = { value := s.word a, state := s } := by
  simp [memReadWord, memRead_unbound, h, h', State.word]

theorem memReadWord_only (a : Addr) (s : State) : HandlersOnly s (memReadWord a s).state :=
  (memRead_only a s).trans (memRead_only _ _)

@[simp] theorem memReadWord_zext16 (b : Byte) (s : State) :
    memReadWord (zext16 b) s = { value := s.word (zext16 b), state := s } :=
  memReadWord_unbound (by simp) (by simp)

@[simp] theorem memReadWord_vector (k : IntKind) (s : State) :
    memReadWord (vector k) s = { value := s.word (vector k), state := s } :=
  memReadWord_unbound (by simp) (by simp)

/-! The stack: page 1 holds no bound offset, so every access is plain storage. -/

theorem push8_eq (v : Byte) (s : State) : push8 v s = (s.poke (stackAddr s.sp) v).setSp (s.sp - 1) := by
  simp [push8, memWrite_unbound]

theorem pull8_eq (s : State) : pull8 s = { value := s.peek (stackAddr (s.sp + 1)), state := s.setSp (s.sp + 1) } := by
  simp [pull8, memRead_unbound]

theorem pull16_eq (s : State) :
    pull16 s = { value := join (s.peek (stackAddr (s.sp + 1 + 1))) (s.peek (stackAddr (s.sp + 1)))
                 state := s.setSp (s.sp + 1 + 1) } := by
  simp only [pull16, pull8_eq, State.setSp_sp, State.setSp_peek]; rfl

theorem push16_eq (w : Addr) (s : State) :
    push16 w s = ((s.poke (stackAddr s.sp) (hi8 w)).poke (stackAddr (s.sp - 1)) (lo8 w)).setSp (s.sp - 1 - 1) := by
  simp only [push16, push8_eq]; rfl

/-! The resolver (R117 to R126) and the operand. -/

/-- The reference a form resolves to. -/
def refOf (m : Operand) (s : State) : Ref :=
  match effectiveAddr m s with
  | some a => .mem a
  | none => match m with
    | .imm v => .imm v
    | _ => .acc

theorem resolve_eq (m : Operand) (s : State) :
    resolve m s = { ref := refOf m s, state := s.addCyc (pointerCycles m) } := by
  cases m <;> simp [resolve, refOf, effectiveAddr, pointerCycles] <;> rfl

theorem effectiveAddr_addCyc (m : Operand) (s : State) (n : Nat) :
    effectiveAddr m (s.addCyc n) = effectiveAddr m s := by cases m <;> rfl

theorem readOperand_eq (m : Operand) (s : State) : readOperand m s = operandValue m s := by
  simp only [readOperand, resolve_eq, operandValue, refOf]
  cases h : effectiveAddr m s with
  | some a => simp only [readRef]; rfl
  | none => cases m <;> simp_all [effectiveAddr, readRef, directValue, pointerCycles, State.addCyc]

/-- Reading an operand counts its cycles and runs at most handlers. -/
theorem operandValue_only (m : Operand) (s : State) :
    ∃ n, HandlersOnly (s.addCyc n) (operandValue m s).state := by
  unfold operandValue
  split
  · exact ⟨0, HandlersOnly.refl _⟩
  · exact ⟨_, memRead_only _ _⟩

theorem writeOperand_mem {m : Operand} {s : State} {a : Addr} (v : Byte) (h : effectiveAddr m s = some a) :
    writeOperand m v s = memWrite a v (s.addCyc (pointerCycles m + 1)) := by
  simp only [writeOperand, resolve_eq, refOf, h, writeRef]; rfl

/-- A read-modify-write in memory: one read and one write at the same address (R77). -/
theorem modifyOperand_mem {op : Byte → Flags → Outcome8} {m : Operand} {s : State} {a : Addr}
    (h : effectiveAddr m s = some a) :
    modifyOperand op m s =
      let g := memRead a (s.addCyc (pointerCycles m + 1))
      let o := op g.value s.flags
      memWrite a o.value ((g.state.setFlags o.flags).addCyc 1) := by
  obtain ⟨p, r, w, d, n, hg⟩ := memRead_only a (s.addCyc (pointerCycles m + 1))
  simp only [modifyOperand, resolve_eq, refOf, h, readRef, writeRef]
  have hc : (s.addCyc (pointerCycles m)).addCyc 1 = s.addCyc (pointerCycles m + 1) := rfl
  rw [hc, hg]
  rfl

theorem modifyOperand_acc (op : Byte → Flags → Outcome8) (s : State) :
    modifyOperand op .acc s = (s.setFlags (op s.a s.flags).flags).setA (op s.a s.flags).value := rfl

/-! The fetch (R111). -/

theorem fetch8_unbound {s : State} (h : s.isBound s.pc = false) :
    fetch8 s = { value := s.peek s.pc, state := (s.setPc (s.pc + 1)).addCyc 1 } := by
  simp [fetch8, memRead_unbound, h]

/-- A fetch moves PC by one, counts one cycle and runs at most handlers. -/
theorem fetch8_only (s : State) : HandlersOnly ((s.setPc (s.pc + 1)).addCyc 1) (fetch8 s).state := by
  obtain ⟨p, r, w, d, n, h⟩ := memRead_only s.pc s
  exact ⟨p, r, w, d, n, by simp only [fetch8, h]; rfl⟩

/-- The state `n` bytes of the instruction stream further. -/
def State.fetched (s : State) (n : Nat) : State := (s.setPc (s.pc + BitVec.ofNat 16 n)).addCyc n

theorem State.fetched_zero (s : State) : s.fetched 0 = s := by simp [State.fetched, State.setPc, State.addCyc]

theorem State.fetched_succ (s : State) (n : Nat) :
    ((s.fetched n).setPc ((s.fetched n).pc + 1)).addCyc 1 = s.fetched (n + 1) := by
  have h : s.pc + BitVec.ofNat 16 n + 1 = s.pc + BitVec.ofNat 16 (n + 1) := by
    rw [BitVec.add_assoc]; congr 1; apply BitVec.eq_of_toNat_eq; simp
  show ((s.fetched n).setPc (s.pc + BitVec.ofNat 16 n + 1)).addCyc 1 = _
  rw [h]; rfl

/-- One more byte fetched, handlers included. -/
theorem fetch8_fetched {s t : State} {n : Nat} (h : HandlersOnly (s.fetched n) t) :
    HandlersOnly (s.fetched (n + 1)) (fetch8 t).state := by
  obtain ⟨p, r, w, d, k, rfl⟩ := h
  obtain ⟨p', r', w', d', k', h'⟩ := fetch8_only
    { s.fetched n with pending := p, env := { (s.fetched n).env with reads := r, writes := w }, devEvents := d, draws := k }
  exact ⟨p', r', w', d', k', by rw [h', ← State.fetched_succ]; rfl⟩

theorem operandBytes_le (recognized : List Byte) (op : Byte) : operandBytes recognized op ≤ 2 := by
  unfold operandBytes Cell.operandBytes
  split <;> try omega
  rename_i f _ _
  cases f <;> simp [Mode.operandBytes]

/-- The fetch (R93, R111): an instruction of the decoder, PC and the counter moved by its length, handlers at most. -/
theorem fetchInstr_only (s : State) :
    ∃ op b1 b2, (fetchInstr s).instr = decodeBytes s.cfg.recognized op b1 b2 ∧
      HandlersOnly (s.fetched (1 + operandBytes s.cfg.recognized op)) (fetchInstr s).state := by
  have h0 : HandlersOnly (s.fetched 1) (fetch8 s).state := fetch8_fetched (by rw [State.fetched_zero]; exact HandlersOnly.refl s)
  have h1 := fetch8_fetched h0
  have h2 := fetch8_fetched h1
  have hle := operandBytes_le s.cfg.recognized (fetch8 s).value
  unfold fetchInstr
  simp only
  split
  · rename_i h; exact ⟨_, _, _, rfl, by rw [h]; exact h0⟩
  · rename_i h; exact ⟨_, _, _, rfl, by rw [h]; exact h1⟩
  · rename_i hn0 hn1
    have h : operandBytes s.cfg.recognized (fetch8 s).value = 2 := by
      interval_cases hx : operandBytes s.cfg.recognized (fetch8 s).value <;> simp_all
    exact ⟨_, _, _, rfl, by rw [h]; exact h2⟩

/-! The ends of a Tick. -/

/-- The host's calls between two Ticks (R272 c, R294): the slot, and one entry of the host's script. -/
theorem hostEvents_only (s : State) :
    ∃ p, hostEvents s = { s with pending := p, env := { s.env with host := s.env.host.tail } } := by
  unfold hostEvents
  split <;> rename_i h <;> rw [h]
  · exact ⟨s.pending, by rw [List.tail_nil, ← h]⟩
  · exact signalAll_slot _ { s with env := { s.env with host := _ } }

/-- A step that answers a next state (R285, R286): the begin of the Tick, its instruction, its end, the host's calls. -/
theorem step_next {s t : State} :
    step s = .next t ↔ ∃ u, stepInstr (beginTick s) = .next u ∧ t = hostEvents (endTick u) := by
  unfold step
  cases stepInstr (beginTick s) <;> simp [eq_comm]

/-- The peripheral-tick phase (R285, R290): the accumulators, the returns of the helper, the slot and the script. -/
theorem tickPhase_only (s : State) :
    ∃ p ticks, tickPhase s =
      { s with
        peripherals := s.peripherals.map fun q => (tickPeripheral s.cyc q).peripheral
        crossed := s.peripherals.map fun q => (tickPeripheral s.cyc q).returned
        pending := p, env := { s.env with ticks := ticks } } := by
  unfold tickPhase
  simp only [List.map_map]
  split
  · exact ⟨s.pending, s.env.ticks, rfl⟩
  · obtain ⟨p, hp⟩ := signalAll_slot (List.map PeripheralRequest.kind ‹_›)
      { s with
        peripherals := List.map (Crossing.peripheral ∘ tickPeripheral s.cyc) s.peripherals
        crossed := List.map (Crossing.returned ∘ tickPeripheral s.cyc) s.peripherals
        env := { s.env with ticks := ‹_› } }
    exact ⟨p, _, hp⟩

/-- The end of a Tick changes the peripherals' accumulators, the returns of the helper, the pacing accumulator, the slot and
the script, and nothing else. -/
theorem endTick_only (s : State) :
    ∃ p ticks, endTick s =
      { s with
        peripherals := s.peripherals.map fun q => (tickPeripheral s.cyc q).peripheral
        crossed := s.peripherals.map fun q => (tickPeripheral s.cyc q).returned
        paceAcc := (pace s).paceAcc, pending := p, env := { s.env with ticks := ticks } } := by
  obtain ⟨p, e, h⟩ := tickPhase_only s
  exact ⟨p, e, by rw [endTick, h]; rfl⟩

/-! Interrupt entry and return. -/

theorem pushFrame_eq (k : IntKind) (s : State) :
    pushFrame k s =
      if k = .reset then s
      else ((((s.poke (stackAddr s.sp) (hi8 s.pc)).poke (stackAddr (s.sp - 1)) (lo8 s.pc)).poke (stackAddr (s.sp - 1 - 1))
        s.flags.pack).setSp (s.sp - 1 - 1 - 1)) := by
  cases k <;> simp only [pushFrame, push16_eq, push8_eq, reduceCtorEq, if_false, if_true] <;> rfl

/-- A stack push never touches a vector. -/
theorem word_vector_poke_stack (k : IntKind) (s : State) (p v : Byte) :
    (s.poke (stackAddr p) v).word (vector k) = s.word (vector k) := by
  have h1 : vector k ≠ stackAddr p := stackAddr_ne_of_page (by cases k <;> decide)
  have h2 : secondAddr s.cfg.wordReadPageWrap (vector k) ≠ stackAddr p :=
    stackAddr_ne_of_page (by cases k <;> cases s.cfg.wordReadPageWrap <;> decide)
  simp [State.word, State.poke_peek, h1, h2]

/-- A frame changes memory and SP only. -/
theorem pushFrame_only (k : IntKind) (s : State) : ∃ sp mem, pushFrame k s = { s with sp := sp, mem := mem } := by
  rw [pushFrame_eq]
  split_ifs
  · exact ⟨s.sp, s.mem, rfl⟩
  · exact ⟨_, _, rfl⟩

theorem pushFrame_word_vector (k j : IntKind) (s : State) : (pushFrame k s).word (vector j) = s.word (vector j) := by
  rw [pushFrame_eq]
  split_ifs
  · rfl
  · exact (word_vector_poke_stack j ((s.poke _ _).poke _ _) _ _).trans
      ((word_vector_poke_stack j (s.poke _ _) _ _).trans (word_vector_poke_stack j s _ _))

/-- The entry (R275): the frame, the flags, three cycles, PC from the vector, the slot cleared. -/
theorem service_eq (k : IntKind) (s : State) :
    service k s =
      { pushFrame k s with
        flags := s.flags.enter k, cyc := s.cyc + 3, pc := s.word (vector k), pending := none } := by
  obtain ⟨sp, mem, h⟩ := pushFrame_only k s
  have hw : (((pushFrame k s).setFlags ((pushFrame k s).flags.enter k)).addCyc 3).word (vector k) = s.word (vector k) :=
    pushFrame_word_vector k k s
  simp only [service, memReadWord_vector, hw]
  rw [h]
  rfl

/-- The return (R224): flags, then PC, three bytes up the stack. -/
theorem returnFromInterrupt_eq (s : State) :
    returnFromInterrupt s =
      { s with
        flags := Flags.unpack (s.peek (stackAddr (s.sp + 1)))
        pc := join (s.peek (stackAddr (s.sp + 1 + 1 + 1))) (s.peek (stackAddr (s.sp + 1 + 1)))
        sp := s.sp + 1 + 1 + 1
        cyc := s.cyc + 3 } := by
  simp only [returnFromInterrupt, pull8_eq, pull16_eq]
  rfl

end Sys2Proof.Machine
end

