-- ==== Sys2Proof/Laws/Decode.lean ====
section
/-! SUPPORT. What RECOGNIZED does to decoding, said once. -/

namespace Sys2Proof

/-- A recognized byte decodes by its cell of the matrix (R93). -/
theorem selectedCell_of_mem {recognized : List Byte} {op : Byte} (h : op ∈ recognized) :
    selectedCell recognized op = opcodeCell op := by simp [selectedCell, h]

/-- A byte that is not recognized is UNREC's (R93, R97). -/
theorem selectedCell_of_notMem {recognized : List Byte} {op : Byte} (h : op ∉ recognized) :
    selectedCell recognized op = .none := by simp [selectedCell, h]

/-- The 105 bytes of R97 are those with no instruction in the matrix of R95. -/
theorem mem_unrecognizedBytes (op : Byte) : op ∈ unrecognizedBytes ↔ opcodeCell op = .none := by
  have key : ∀ b : Byte, unrecognizedBytes.contains b = (match opcodeCell b with | .none => true | _ => false) := by decide
  rw [← List.contains_iff_mem, key op]
  cases opcodeCell op <;> simp

/-- Decoding, where RECOGNIZED does not hold the opcode byte of no instruction. -/
theorem decodeWith_cons {recognized : List Byte} {op : Byte} (tail : List Byte)
    (h : ¬(op ∈ recognized ∧ op ∈ unrecognizedBytes)) :
    decodeWith recognized (op :: tail) =
      match operandBytes recognized op, tail with
      | 0, rest => .ok (decodeBytes recognized op 0 0, rest)
      | 1, b1 :: rest => .ok (decodeBytes recognized op b1 0, rest)
      | 2, b1 :: b2 :: rest => .ok (decodeBytes recognized op b1 b2, rest)
      | _, _ => .error (.missingOperand op) := if_neg (by simpa using h)

/-- Decoding, where it does: rejected by name (log entry 4). -/
theorem decodeWith_noInstruction {recognized : List Byte} {op : Byte} (tail : List Byte)
    (h : op ∈ recognized ∧ op ∈ unrecognizedBytes) :
    decodeWith recognized (op :: tail) = .error (.noInstruction op) := if_pos (by simpa using h)

end Sys2Proof
end

