-- ==== Sys2Proof/Laws/Flags.lean ====
section
/-! SUPPORT. What the flag computations and the checks of forms can do, each said once. -/

namespace Sys2Proof.Machine

/-- Bit 7 of a byte, as a comparison. -/
theorem getLsbD_seven (v : Byte) : v.getLsbD 7 = decide (128 ≤ v.toNat) := by revert v; decide

@[simp] theorem truncated_toNat (v : Byte) : truncated (v.toNat : Int) = v := by simp [truncated]

/-- `SetZS(v)` answers v and writes Z and S only (R171). -/
theorem setZS_eq (v : Byte) (f : Flags) : setZS v f = { value := v, flags := withZS v f } := by
  simp only [setZS, updateFlags, selectZS, truncated_toNat, withZS, getLsbD_seven, if_true]
  congr 2

theorem increment_eq (v : Byte) (f : Flags) : increment v f = { value := v + 1, flags := withZS (v + 1) f } := setZS_eq _ _

theorem decrement_eq (v : Byte) (f : Flags) : decrement v f = { value := v - 1, flags := withZS (v - 1) f } := setZS_eq _ _

theorem shiftRight_eq (v : Byte) (f : Flags) :
    shiftRight v f = { value := v >>> 1, flags := withZS (v >>> 1) (f.withC (v.getLsbD 0)) } := setZS_eq _ _

/-- The flags that no updater writes (R170): I, D, B and R. -/
def Flags.sameControl (f g : Flags) : Prop := f.i = g.i ∧ f.d = g.d ∧ f.b = g.b ∧ f.r = g.r

/-- The updater writes at most C, Z and S (R170). -/
theorem updateFlags_frame (raw : Int) (sel : FlagSelect) (f : Flags) :
    (updateFlags raw sel f).flags.sameControl f ∧ (updateFlags raw sel f).flags.v = f.v := ⟨⟨rfl, rfl, rfl, rfl⟩, rfl⟩

/-- A meaning that checks its form answers next exactly when the form is right. -/
theorem whenForm_next {ok : Bool} {s t : State} : whenForm ok s = .next t ↔ ok = true ∧ t = s := by
  cases ok <;> simp [whenForm, eq_comm]

/-- ADC's sum writes A, flags that are not control flags, and, for invalid BCD alone, the counter of free values. -/
theorem addWithCarry_only (v : Byte) (s : State) :
    ∃ a f n, addWithCarry v s = { s with a := a, flags := f, draws := n } ∧ f.sameControl s.flags ∧
      (s.flags.d = false → n = s.draws) ∧ (s.flags.d = true → f.v = s.flags.v) := by
  unfold addWithCarry State.takeDecimal
  split_ifs with h1 h2
  · exact ⟨_, _, s.draws, rfl, ⟨rfl, rfl, rfl, rfl⟩, fun _ => rfl, fun _ => rfl⟩
  · exact ⟨_, _, _, rfl, ⟨rfl, rfl, rfl, rfl⟩, fun h => by simp_all, fun _ => rfl⟩
  · exact ⟨_, _, s.draws, rfl, ⟨rfl, rfl, rfl, rfl⟩, fun _ => rfl, fun h => absurd h h1⟩

/-- SBC's difference, likewise. -/
theorem subWithBorrow_only (v : Byte) (s : State) :
    ∃ a f n, subWithBorrow v s = { s with a := a, flags := f, draws := n } ∧ f.sameControl s.flags ∧
      (s.flags.d = false → n = s.draws) ∧ (s.flags.d = true → f.v = s.flags.v) := by
  unfold subWithBorrow State.takeDecimal
  split_ifs with h1 h2
  · exact ⟨_, _, s.draws, rfl, ⟨rfl, rfl, rfl, rfl⟩, fun _ => rfl, fun _ => rfl⟩
  · exact ⟨_, _, _, rfl, ⟨rfl, rfl, rfl, rfl⟩, fun h => by simp_all, fun _ => rfl⟩
  · exact ⟨_, _, s.draws, rfl, ⟨rfl, rfl, rfl, rfl⟩, fun _ => rfl, fun h => absurd h h1⟩

end Sys2Proof.Machine
end

