-- ==== Sys2Proof/Laws/PerInstr.lean ====
section
/-! SUPPORT. Statements about every instruction as syntax, one lemma per constructor. -/

namespace Sys2Proof.Laws

/-- The encoder gives bytes to exactly the well-formed terms (R96, R97). -/
def EncodesWhenWellFormed.Statement (i : Instr) : Prop := i.encode.isSome = i.wellFormed

/-- The encoder gives an instruction as many operand bytes as the decoder takes for its opcode, and UNREC none (R90, R91). -/
def OperandSize.Statement (i : Instr) : Prop := ∀ op, i.opcode = some op → 
  i.operandPart.length = if i.isUnrec then 0 else (opcodeCell op).operandBytes

theorem EncodesWhenWellFormed.lda (m : Operand) : EncodesWhenWellFormed.Statement (.lda m) := by cases m <;> rfl
theorem EncodesWhenWellFormed.ldx (m : Operand) : EncodesWhenWellFormed.Statement (.ldx m) := by cases m <;> rfl
theorem EncodesWhenWellFormed.ldy (m : Operand) : EncodesWhenWellFormed.Statement (.ldy m) := by cases m <;> rfl
theorem EncodesWhenWellFormed.sta (m : Operand) : EncodesWhenWellFormed.Statement (.sta m) := by cases m <;> rfl
theorem EncodesWhenWellFormed.stx (m : Operand) : EncodesWhenWellFormed.Statement (.stx m) := by cases m <;> rfl
theorem EncodesWhenWellFormed.sty (m : Operand) : EncodesWhenWellFormed.Statement (.sty m) := by cases m <;> rfl
theorem EncodesWhenWellFormed.tax : EncodesWhenWellFormed.Statement .tax := rfl
theorem EncodesWhenWellFormed.tay : EncodesWhenWellFormed.Statement .tay := rfl
theorem EncodesWhenWellFormed.txa : EncodesWhenWellFormed.Statement .txa := rfl
theorem EncodesWhenWellFormed.tya : EncodesWhenWellFormed.Statement .tya := rfl
theorem EncodesWhenWellFormed.tsx : EncodesWhenWellFormed.Statement .tsx := rfl
theorem EncodesWhenWellFormed.txs : EncodesWhenWellFormed.Statement .txs := rfl
theorem EncodesWhenWellFormed.pha : EncodesWhenWellFormed.Statement .pha := rfl
theorem EncodesWhenWellFormed.php : EncodesWhenWellFormed.Statement .php := rfl
theorem EncodesWhenWellFormed.pla : EncodesWhenWellFormed.Statement .pla := rfl
theorem EncodesWhenWellFormed.plp : EncodesWhenWellFormed.Statement .plp := rfl
theorem EncodesWhenWellFormed.adc (m : Operand) : EncodesWhenWellFormed.Statement (.adc m) := by cases m <;> rfl
theorem EncodesWhenWellFormed.sbc (m : Operand) : EncodesWhenWellFormed.Statement (.sbc m) := by cases m <;> rfl
theorem EncodesWhenWellFormed.cmp (m : Operand) : EncodesWhenWellFormed.Statement (.cmp m) := by cases m <;> rfl
theorem EncodesWhenWellFormed.cpx (m : Operand) : EncodesWhenWellFormed.Statement (.cpx m) := by cases m <;> rfl
theorem EncodesWhenWellFormed.cpy (m : Operand) : EncodesWhenWellFormed.Statement (.cpy m) := by cases m <;> rfl
theorem EncodesWhenWellFormed.inc (m : Operand) : EncodesWhenWellFormed.Statement (.inc m) := by cases m <;> rfl
theorem EncodesWhenWellFormed.inx : EncodesWhenWellFormed.Statement .inx := rfl
theorem EncodesWhenWellFormed.iny : EncodesWhenWellFormed.Statement .iny := rfl
theorem EncodesWhenWellFormed.dec (m : Operand) : EncodesWhenWellFormed.Statement (.dec m) := by cases m <;> rfl
theorem EncodesWhenWellFormed.dex : EncodesWhenWellFormed.Statement .dex := rfl
theorem EncodesWhenWellFormed.dey : EncodesWhenWellFormed.Statement .dey := rfl
theorem EncodesWhenWellFormed.and (m : Operand) : EncodesWhenWellFormed.Statement (.and m) := by cases m <;> rfl
theorem EncodesWhenWellFormed.ora (m : Operand) : EncodesWhenWellFormed.Statement (.ora m) := by cases m <;> rfl
theorem EncodesWhenWellFormed.eor (m : Operand) : EncodesWhenWellFormed.Statement (.eor m) := by cases m <;> rfl
theorem EncodesWhenWellFormed.bit (m : Operand) : EncodesWhenWellFormed.Statement (.bit m) := by cases m <;> rfl
theorem EncodesWhenWellFormed.asl (m : Operand) : EncodesWhenWellFormed.Statement (.asl m) := by cases m <;> rfl
theorem EncodesWhenWellFormed.lsr (m : Operand) : EncodesWhenWellFormed.Statement (.lsr m) := by cases m <;> rfl
theorem EncodesWhenWellFormed.rol (m : Operand) : EncodesWhenWellFormed.Statement (.rol m) := by cases m <;> rfl
theorem EncodesWhenWellFormed.ror (m : Operand) : EncodesWhenWellFormed.Statement (.ror m) := by cases m <;> rfl
theorem EncodesWhenWellFormed.jmpAbs (w : Addr) : EncodesWhenWellFormed.Statement (.jmpAbs w) := rfl
theorem EncodesWhenWellFormed.jmpInd (w : Addr) : EncodesWhenWellFormed.Statement (.jmpInd w) := rfl
theorem EncodesWhenWellFormed.jsr (w : Addr) : EncodesWhenWellFormed.Statement (.jsr w) := rfl
theorem EncodesWhenWellFormed.rts : EncodesWhenWellFormed.Statement .rts := rfl
theorem EncodesWhenWellFormed.rti : EncodesWhenWellFormed.Statement .rti := rfl
theorem EncodesWhenWellFormed.brk : EncodesWhenWellFormed.Statement .brk := rfl
theorem EncodesWhenWellFormed.bcc (r : Byte) : EncodesWhenWellFormed.Statement (.bcc r) := rfl
theorem EncodesWhenWellFormed.bcs (r : Byte) : EncodesWhenWellFormed.Statement (.bcs r) := rfl
theorem EncodesWhenWellFormed.beq (r : Byte) : EncodesWhenWellFormed.Statement (.beq r) := rfl
theorem EncodesWhenWellFormed.bne (r : Byte) : EncodesWhenWellFormed.Statement (.bne r) := rfl
theorem EncodesWhenWellFormed.bmi (r : Byte) : EncodesWhenWellFormed.Statement (.bmi r) := rfl
theorem EncodesWhenWellFormed.bpl (r : Byte) : EncodesWhenWellFormed.Statement (.bpl r) := rfl
theorem EncodesWhenWellFormed.bvc (r : Byte) : EncodesWhenWellFormed.Statement (.bvc r) := rfl
theorem EncodesWhenWellFormed.bvs (r : Byte) : EncodesWhenWellFormed.Statement (.bvs r) := rfl
theorem EncodesWhenWellFormed.clc : EncodesWhenWellFormed.Statement .clc := rfl
theorem EncodesWhenWellFormed.sec : EncodesWhenWellFormed.Statement .sec := rfl
theorem EncodesWhenWellFormed.cli : EncodesWhenWellFormed.Statement .cli := rfl
theorem EncodesWhenWellFormed.sei : EncodesWhenWellFormed.Statement .sei := rfl
theorem EncodesWhenWellFormed.cld : EncodesWhenWellFormed.Statement .cld := rfl
theorem EncodesWhenWellFormed.sed : EncodesWhenWellFormed.Statement .sed := rfl
theorem EncodesWhenWellFormed.clv : EncodesWhenWellFormed.Statement .clv := rfl
theorem EncodesWhenWellFormed.nop : EncodesWhenWellFormed.Statement .nop := rfl
theorem EncodesWhenWellFormed.unrec (op : Byte) : EncodesWhenWellFormed.Statement (.unrec op) := rfl

theorem OperandSize.lda (m : Operand) : OperandSize.Statement (.lda m) := by
  intro op h; cases m <;> first | (cases h; rfl) | cases h
theorem OperandSize.ldx (m : Operand) : OperandSize.Statement (.ldx m) := by
  intro op h; cases m <;> first | (cases h; rfl) | cases h
theorem OperandSize.ldy (m : Operand) : OperandSize.Statement (.ldy m) := by
  intro op h; cases m <;> first | (cases h; rfl) | cases h
theorem OperandSize.sta (m : Operand) : OperandSize.Statement (.sta m) := by
  intro op h; cases m <;> first | (cases h; rfl) | cases h
theorem OperandSize.stx (m : Operand) : OperandSize.Statement (.stx m) := by
  intro op h; cases m <;> first | (cases h; rfl) | cases h
theorem OperandSize.sty (m : Operand) : OperandSize.Statement (.sty m) := by
  intro op h; cases m <;> first | (cases h; rfl) | cases h
theorem OperandSize.tax : OperandSize.Statement .tax := by
  intro op h; cases h; rfl
theorem OperandSize.tay : OperandSize.Statement .tay := by
  intro op h; cases h; rfl
theorem OperandSize.txa : OperandSize.Statement .txa := by
  intro op h; cases h; rfl
theorem OperandSize.tya : OperandSize.Statement .tya := by
  intro op h; cases h; rfl
theorem OperandSize.tsx : OperandSize.Statement .tsx := by
  intro op h; cases h; rfl
theorem OperandSize.txs : OperandSize.Statement .txs := by
  intro op h; cases h; rfl
theorem OperandSize.pha : OperandSize.Statement .pha := by
  intro op h; cases h; rfl
theorem OperandSize.php : OperandSize.Statement .php := by
  intro op h; cases h; rfl
theorem OperandSize.pla : OperandSize.Statement .pla := by
  intro op h; cases h; rfl
theorem OperandSize.plp : OperandSize.Statement .plp := by
  intro op h; cases h; rfl
theorem OperandSize.adc (m : Operand) : OperandSize.Statement (.adc m) := by
  intro op h; cases m <;> first | (cases h; rfl) | cases h
theorem OperandSize.sbc (m : Operand) : OperandSize.Statement (.sbc m) := by
  intro op h; cases m <;> first | (cases h; rfl) | cases h
theorem OperandSize.cmp (m : Operand) : OperandSize.Statement (.cmp m) := by
  intro op h; cases m <;> first | (cases h; rfl) | cases h
theorem OperandSize.cpx (m : Operand) : OperandSize.Statement (.cpx m) := by
  intro op h; cases m <;> first | (cases h; rfl) | cases h
theorem OperandSize.cpy (m : Operand) : OperandSize.Statement (.cpy m) := by
  intro op h; cases m <;> first | (cases h; rfl) | cases h
theorem OperandSize.inc (m : Operand) : OperandSize.Statement (.inc m) := by
  intro op h; cases m <;> first | (cases h; rfl) | cases h
theorem OperandSize.inx : OperandSize.Statement .inx := by
  intro op h; cases h; rfl
theorem OperandSize.iny : OperandSize.Statement .iny := by
  intro op h; cases h; rfl
theorem OperandSize.dec (m : Operand) : OperandSize.Statement (.dec m) := by
  intro op h; cases m <;> first | (cases h; rfl) | cases h
theorem OperandSize.dex : OperandSize.Statement .dex := by
  intro op h; cases h; rfl
theorem OperandSize.dey : OperandSize.Statement .dey := by
  intro op h; cases h; rfl
theorem OperandSize.and (m : Operand) : OperandSize.Statement (.and m) := by
  intro op h; cases m <;> first | (cases h; rfl) | cases h
theorem OperandSize.ora (m : Operand) : OperandSize.Statement (.ora m) := by
  intro op h; cases m <;> first | (cases h; rfl) | cases h
theorem OperandSize.eor (m : Operand) : OperandSize.Statement (.eor m) := by
  intro op h; cases m <;> first | (cases h; rfl) | cases h
theorem OperandSize.bit (m : Operand) : OperandSize.Statement (.bit m) := by
  intro op h; cases m <;> first | (cases h; rfl) | cases h
theorem OperandSize.asl (m : Operand) : OperandSize.Statement (.asl m) := by
  intro op h; cases m <;> first | (cases h; rfl) | cases h
theorem OperandSize.lsr (m : Operand) : OperandSize.Statement (.lsr m) := by
  intro op h; cases m <;> first | (cases h; rfl) | cases h
theorem OperandSize.rol (m : Operand) : OperandSize.Statement (.rol m) := by
  intro op h; cases m <;> first | (cases h; rfl) | cases h
theorem OperandSize.ror (m : Operand) : OperandSize.Statement (.ror m) := by
  intro op h; cases m <;> first | (cases h; rfl) | cases h
theorem OperandSize.jmpAbs (w : Addr) : OperandSize.Statement (.jmpAbs w) := by
  intro op h; cases h; rfl
theorem OperandSize.jmpInd (w : Addr) : OperandSize.Statement (.jmpInd w) := by
  intro op h; cases h; rfl
theorem OperandSize.jsr (w : Addr) : OperandSize.Statement (.jsr w) := by
  intro op h; cases h; rfl
theorem OperandSize.rts : OperandSize.Statement .rts := by
  intro op h; cases h; rfl
theorem OperandSize.rti : OperandSize.Statement .rti := by
  intro op h; cases h; rfl
theorem OperandSize.brk : OperandSize.Statement .brk := by
  intro op h; cases h; rfl
theorem OperandSize.bcc (r : Byte) : OperandSize.Statement (.bcc r) := by
  intro op h; cases h; rfl
theorem OperandSize.bcs (r : Byte) : OperandSize.Statement (.bcs r) := by
  intro op h; cases h; rfl
theorem OperandSize.beq (r : Byte) : OperandSize.Statement (.beq r) := by
  intro op h; cases h; rfl
theorem OperandSize.bne (r : Byte) : OperandSize.Statement (.bne r) := by
  intro op h; cases h; rfl
theorem OperandSize.bmi (r : Byte) : OperandSize.Statement (.bmi r) := by
  intro op h; cases h; rfl
theorem OperandSize.bpl (r : Byte) : OperandSize.Statement (.bpl r) := by
  intro op h; cases h; rfl
theorem OperandSize.bvc (r : Byte) : OperandSize.Statement (.bvc r) := by
  intro op h; cases h; rfl
theorem OperandSize.bvs (r : Byte) : OperandSize.Statement (.bvs r) := by
  intro op h; cases h; rfl
theorem OperandSize.clc : OperandSize.Statement .clc := by
  intro op h; cases h; rfl
theorem OperandSize.sec : OperandSize.Statement .sec := by
  intro op h; cases h; rfl
theorem OperandSize.cli : OperandSize.Statement .cli := by
  intro op h; cases h; rfl
theorem OperandSize.sei : OperandSize.Statement .sei := by
  intro op h; cases h; rfl
theorem OperandSize.cld : OperandSize.Statement .cld := by
  intro op h; cases h; rfl
theorem OperandSize.sed : OperandSize.Statement .sed := by
  intro op h; cases h; rfl
theorem OperandSize.clv : OperandSize.Statement .clv := by
  intro op h; cases h; rfl
theorem OperandSize.nop : OperandSize.Statement .nop := by
  intro op h; cases h; rfl
theorem OperandSize.unrec (op : Byte) : OperandSize.Statement (.unrec op) := by
  intro op' _; rfl

end Sys2Proof.Laws
end

