-- ==== Sys2Proof/Tests/Slice0.lean ====
section
/-! SUPPORT. Tests: the checks of WellFormed, decoding from bytes written out from the table of R96, one-step tests from the
vectors of 95_test_vectors.md (S1 to S9, T1 to T12), and a witness for the hypotheses of each obligation that has some. -/

open Sys2Proof Sys2Proof.Machine

/-- The packed flags set; B and R too, as stored bits. -/
def Sys2Proof.Machine.State.packed (s : State) (b : Byte) : State :=
  s.setFlags { Flags.unpack b with b := b.getLsbD 4, r := b.getLsbD 5 }

namespace Sys2Proof.Tests

/-! WellFormed: each form check refuses an ill-formed term, and so does the encoder. -/

theorem test_illformed_alu_acc : Instr.wellFormed (.lda .acc) = false ∧ Instr.encode (.lda .acc) = none := by decide
theorem test_illformed_alu_zpy : Instr.wellFormed (.adc (.zpy 0x10)) = false ∧ Instr.encode (.adc (.zpy 0x10)) = none := by decide
theorem test_illformed_sta_immediate : Instr.wellFormed (.sta (.imm 1)) = false ∧ Instr.encode (.sta (.imm 1)) = none := by decide
theorem test_illformed_ldx_zpx : Instr.wellFormed (.ldx (.zpx 0x10)) = false ∧ Instr.encode (.ldx (.zpx 0x10)) = none := by decide
theorem test_illformed_ldy_zpy : Instr.wellFormed (.ldy (.zpy 0x10)) = false ∧ Instr.encode (.ldy (.zpy 0x10)) = none := by decide
theorem test_illformed_stx_immediate : Instr.wellFormed (.stx (.imm 1)) = false ∧ Instr.encode (.stx (.imm 1)) = none := by decide
theorem test_illformed_sty_zpy : Instr.wellFormed (.sty (.zpy 0x10)) = false ∧ Instr.encode (.sty (.zpy 0x10)) = none := by decide
theorem test_illformed_cpx_indexed : Instr.wellFormed (.cpx (.zpx 0x10)) = false ∧ Instr.encode (.cpx (.zpx 0x10)) = none := by decide
theorem test_illformed_bit_immediate : Instr.wellFormed (.bit (.imm 1)) = false ∧ Instr.encode (.bit (.imm 1)) = none := by decide
theorem test_illformed_inc_acc : Instr.wellFormed (.inc .acc) = false ∧ Instr.encode (.inc .acc) = none := by decide
theorem test_illformed_shift_immediate : Instr.wellFormed (.asl (.imm 1)) = false ∧ Instr.encode (.asl (.imm 1)) = none := by decide

/-! Decoding: every constructor, from its bytes. -/

theorem test_decode_loads :
    decode [0xA9, 0x10] = .ok (.lda (.imm 0x10), []) ∧
    decode [0xB6, 0xF8] = .ok (.ldx (.zpy 0xF8), []) ∧
    decode [0xBC, 0x34, 0x12] = .ok (.ldy (.abx 0x1234), []) := by decide

theorem test_decode_stores :
    decode [0x81, 0x20] = .ok (.sta (.izx 0x20), []) ∧
    decode [0x96, 0x10] = .ok (.stx (.zpy 0x10), []) ∧
    decode [0x8C, 0x00, 0xFD] = .ok (.sty (.abs 0xFD00), []) := by decide

theorem test_decode_transfers :
    decode [0xAA] = .ok (.tax, []) ∧
    decode [0xA8] = .ok (.tay, []) ∧
    decode [0x8A] = .ok (.txa, []) ∧
    decode [0x98] = .ok (.tya, []) ∧
    decode [0xBA] = .ok (.tsx, []) ∧
    decode [0x9A] = .ok (.txs, []) := by decide

theorem test_decode_stack :
    decode [0x48] = .ok (.pha, []) ∧
    decode [0x08] = .ok (.php, []) ∧
    decode [0x68] = .ok (.pla, []) ∧
    decode [0x28] = .ok (.plp, []) := by decide

theorem test_decode_arithmetic :
    decode [0x71, 0x86] = .ok (.adc (.izy 0x86), []) ∧
    decode [0xF9, 0xF8, 0xFF] = .ok (.sbc (.aby 0xFFF8), []) ∧
    decode [0xD5, 0x80] = .ok (.cmp (.zpx 0x80), []) ∧
    decode [0xE4, 0x10] = .ok (.cpx (.zp 0x10), []) ∧
    decode [0xCC, 0x00, 0x10] = .ok (.cpy (.abs 0x1000), []) := by decide

theorem test_decode_counts :
    decode [0xFE, 0x00, 0x02] = .ok (.inc (.abx 0x0200), []) ∧
    decode [0xD6, 0x10] = .ok (.dec (.zpx 0x10), []) ∧
    decode [0xE8] = .ok (.inx, []) ∧
    decode [0xC8] = .ok (.iny, []) ∧
    decode [0xCA] = .ok (.dex, []) ∧
    decode [0x88] = .ok (.dey, []) := by decide

theorem test_decode_logic :
    decode [0x29, 0x0F] = .ok (.and (.imm 0x0F), []) ∧
    decode [0x01, 0x20] = .ok (.ora (.izx 0x20), []) ∧
    decode [0x5D, 0xFE, 0x12] = .ok (.eor (.abx 0x12FE), []) ∧
    decode [0x2C, 0x00, 0x10] = .ok (.bit (.abs 0x1000), []) := by decide

theorem test_decode_shifts :
    decode [0x0A] = .ok (.asl .acc, []) ∧
    decode [0x46, 0x10] = .ok (.lsr (.zp 0x10), []) ∧
    decode [0x36, 0x10] = .ok (.rol (.zpx 0x10), []) ∧
    decode [0x6E, 0x00, 0x02] = .ok (.ror (.abs 0x0200), []) := by decide

theorem test_decode_jumps :
    decode [0x4C, 0x00, 0x80] = .ok (.jmpAbs 0x8000, []) ∧
    decode [0x6C, 0xFF, 0x12] = .ok (.jmpInd 0x12FF, []) ∧
    decode [0x20, 0x34, 0x12] = .ok (.jsr 0x1234, []) ∧
    decode [0x60] = .ok (.rts, []) ∧
    decode [0x40] = .ok (.rti, []) ∧
    decode [0x00] = .ok (.brk, []) := by decide

theorem test_decode_branches :
    decode [0x90, 0x04] = .ok (.bcc 0x04, []) ∧
    decode [0xB0, 0xFC] = .ok (.bcs 0xFC, []) ∧
    decode [0xF0, 0x10] = .ok (.beq 0x10, []) ∧
    decode [0xD0, 0xFB] = .ok (.bne 0xFB, []) ∧
    decode [0x30, 0x02] = .ok (.bmi 0x02, []) ∧
    decode [0x10, 0xFE] = .ok (.bpl 0xFE, []) ∧
    decode [0x50, 0x7F] = .ok (.bvc 0x7F, []) ∧
    decode [0x70, 0x80] = .ok (.bvs 0x80, []) := by decide

theorem test_decode_flag_instructions :
    decode [0x18] = .ok (.clc, []) ∧
    decode [0x38] = .ok (.sec, []) ∧
    decode [0x58] = .ok (.cli, []) ∧
    decode [0x78] = .ok (.sei, []) ∧
    decode [0xD8] = .ok (.cld, []) ∧
    decode [0xF8] = .ok (.sed, []) ∧
    decode [0xB8] = .ok (.clv, []) ∧
    decode [0xEA] = .ok (.nop, []) := by decide

theorem test_decode_unrecognized :
    decode [0x02] = .ok (.unrec 0x02, []) ∧
    decode [0xFF] = .ok (.unrec 0xFF, []) ∧
    decode [0x89] = .ok (.unrec 0x89, []) := by decide

/-- An unrecognized byte takes nothing after it (T6: 80 10); a missing byte is refused by name. -/
theorem test_decode_lengths :
    decode [0x80, 0x10] = .ok (.unrec 0x80, [0x10]) ∧ decode [] = .error .noOpcode ∧ decode [0xA9] = .error (.missingOperand 0xA9) := by
  decide

/-- A set of recognized bytes without EA makes EA an UNREC; one with 02, to which R96 gives no instruction, is refused by name. -/
theorem test_decode_recognized :
    decodeWith [0x00] [0xEA] = .ok (.unrec 0xEA, []) ∧ decodeWith [0x02] [0x02] = .error (.noInstruction 0x02) ∧
    Instr.selectedBy recognizedBytes (.unrec 0xEA) = false ∧ Instr.selectedBy [0x00] (.unrec 0xEA) = true := by decide

/-- The opcode byte alone, as the table numbers it: operand bytes of zeros. -/
theorem test_decodeTableWord :
    decodeTableWord 8 0xAD = some (.lda (.abs 0)) ∧ decodeTableWord 8 0x6C = some (.jmpInd 0) ∧
    decodeTableWord 8 0x02 = some (.unrec 0x02) := by decide

/-! One step on a small state. Source: the rows of 95_test_vectors.md, Part 2. -/

/-- The start state of tables T1 to T6: SP = FF, no request, everything else zero, the bytes at 0600. -/
def start (code : List Byte) : State := { State.reset with pending := none, sp := 0xFF, pc := 0x0600, mem := Memory.load [] 0x0600 code }

/-- What is asked of the state after one step. -/
def after {α : Type} (s : State) (ask : State → α) : Option α :=
  match step s with
  | .next t => some (ask t)
  | _ => none

/-- PC, packed flags and cycles after one step. -/
def gives (s : State) (pc : Addr) (flags : Byte) (cyc : Nat) : Bool :=
  after s (fun t => (t.pc, t.flags.pack, t.cyc)) == some (pc, flags, cyc)

/-- A byte after one step. -/
def leaves (s : State) (ask : State → Byte) (v : Byte) : Bool := after s ask == some v

/-- `LDA ($FB,X)`: the pointer's high byte comes from 0x0100. -/
theorem test_lda_izx :
    let s := start [0xA1, 0xFB] |>.setX 4 |>.poke 0xFF 0x00 |>.poke 0x100 0x30 |>.poke 0x3000 0x99 |>.poke 0x0 0x40 |>.poke 0x4000 0x11
    leaves s State.a 0x99 = true ∧ gives s 0x0602 0x80 5 = true := by decide

/-- `LDA $FFF8,Y` wraps past 0xFFFF at no cost. -/
theorem test_lda_aby_wraps :
    let s := start [0xB9, 0xF8, 0xFF] |>.setY 0x10 |>.poke 0x8 0x44
    leaves s State.a 0x44 = true ∧ gives s 0x0603 0x0 4 = true := by decide

/-- `LDX $F8,Y` wraps in page 0. -/
theorem test_ldx_zpy :
    let s := start [0xB6, 0xF8] |>.setY 0x10 |>.poke 0x8 0x66
    leaves s State.x 0x66 = true ∧ gives s 0x0602 0x0 3 = true := by decide

/-- `LDX $1000,Y`. -/
theorem test_ldx_aby :
    let s := start [0xBE, 0x00, 0x10] |>.setX 9 |>.setY 1
    leaves s State.x 0x00 = true ∧ gives s 0x0603 0x2 4 = true := by decide

/-- `LDY $10,X`. -/
theorem test_ldy_zpx :
    let s := start [0xB4, 0x10] |>.setX 1 |>.poke 0x11 0x80
    leaves s State.y 0x80 = true ∧ gives s 0x0602 0x80 3 = true := by decide

/-- `STA $10,X` with X = F0 writes 0x0000. -/
theorem test_sta_zpx_wraps :
    let s := start [0x95, 0x10] |>.setA 0x42 |>.setX 0xF0
    leaves s (State.peek · 0x0) 0x42 = true ∧ gives s 0x0602 0x0 3 = true := by decide

/-- `STA ($20),Y`. -/
theorem test_sta_izy :
    let s := start [0x91, 0x20] |>.setA 0x42 |>.setY 1 |>.poke 0x20 0xFF |>.poke 0x21 0x02
    leaves s (State.peek · 0x300) 0x42 = true ∧ gives s 0x0602 0x0 5 = true := by decide

/-- `STX $10,Y`. -/
theorem test_stx_zpy :
    let s := start [0x96, 0x10] |>.setX 7 |>.setY 2
    leaves s (State.peek · 0x12) 0x07 = true ∧ gives s 0x0602 0x0 3 = true := by decide

/-- `STY $FF,X`. -/
theorem test_sty_zpx :
    let s := start [0x94, 0xFF] |>.setX 2 |>.setY 9
    leaves s (State.peek · 0x1) 0x09 = true ∧ gives s 0x0602 0x0 3 = true := by decide

/-- `TAX`. -/
theorem test_tax :
    let s := start [0xAA] |>.setA 0x80
    leaves s State.x 0x80 = true ∧ gives s 0x0601 0x80 1 = true := by decide

/-- `TAY`. -/
theorem test_tay :
    let s := start [0xA8] |>.setY 5
    leaves s State.y 0x00 = true ∧ gives s 0x0601 0x2 1 = true := by decide

/-- `TXA`. -/
theorem test_txa :
    let s := start [0x8A] |>.setX 1
    leaves s State.a 0x01 = true ∧ gives s 0x0601 0x0 1 = true := by decide

/-- `TYA`. -/
theorem test_tya :
    let s := start [0x98] |>.setY 0xFF
    leaves s State.a 0xFF = true ∧ gives s 0x0601 0x80 1 = true := by decide

/-- `TSX` writes flags. -/
theorem test_tsx :
    let s := start [0xBA] |>.setSp 0xFD
    leaves s State.x 0xFD = true ∧ gives s 0x0601 0x80 1 = true := by decide

/-- `TXS` writes none: S stays, Z stays clear. -/
theorem test_txs :
    let s := start [0x9A] |>.packed 0x80
    leaves s State.sp 0x00 = true ∧ gives s 0x0601 0x80 1 = true := by decide

/-- `PHA` at SP = 00. -/
theorem test_pha_wraps :
    let s := start [0x48] |>.setA 0x42 |>.setSp 0
    leaves s (State.peek · 0x100) 0x42 = true ∧ gives s 0x0601 0x0 2 = true := by decide

/-- `PHP` pushes the stored flags. -/
theorem test_php :
    let s := start [0x08] |>.setSp 0xFE |>.packed 0xb5
    leaves s (State.peek · 0x1FE) 0xB5 = true ∧ gives s 0x0601 0xb5 2 = true := by decide

/-- `PLA` at SP = FF reads 0x0100. -/
theorem test_pla_wraps :
    let s := start [0x68] |>.poke 0x100 0x80
    leaves s State.a 0x80 = true ∧ gives s 0x0601 0x80 2 = true := by decide

/-- `PLP` of 00: B and R are forced to 1. -/
theorem test_plp :
    let s := start [0x28] |>.setSp 0xFE |>.packed 0xcf
    leaves s State.sp 0xFF = true ∧ gives s 0x0601 0x30 2 = true := by decide

/-- `ADC #$80` on 80: carry and overflow. -/
theorem test_adc_overflow :
    let s := start [0x69, 0x80] |>.setA 0x80
    leaves s State.a 0x00 = true ∧ gives s 0x0602 0x43 2 = true := by decide

/-- `ADC #$46` on 58 with C and D: 105. -/
theorem test_adc_decimal :
    let s := start [0x69, 0x46] |>.setA 0x58 |>.packed 0x9
    leaves s State.a 0x05 = true ∧ gives s 0x0602 0x9 2 = true := by decide

/-- `SBC #$B0` on 50: borrow and overflow. -/
theorem test_sbc_overflow :
    let s := start [0xE9, 0xB0] |>.setA 0x50 |>.packed 0x1
    leaves s State.a 0xA0 = true ∧ gives s 0x0602 0xc0 2 = true := by decide

/-- `SBC #$10` on 10 with a borrow, D = 1. -/
theorem test_sbc_decimal :
    let s := start [0xE9, 0x10] |>.setA 0x10 |>.packed 0x8
    leaves s State.a 0x99 = true ∧ gives s 0x0602 0x88 2 = true := by decide

/-- `CMP #$7F` on FF. -/
theorem test_cmp_unsigned :
    let s := start [0xC9, 0x7F] |>.setA 0xFF
    leaves s State.a 0xFF = true ∧ gives s 0x0602 0x81 2 = true := by decide

/-- `CPX #$05` on 04. -/
theorem test_cpx :
    let s := start [0xE0, 0x05] |>.setX 4
    leaves s State.x 0x04 = true ∧ gives s 0x0602 0x80 2 = true := by decide

/-- `CPY $1000` on 01. -/
theorem test_cpy_abs :
    let s := start [0xCC, 0x00, 0x10] |>.setY 1 |>.poke 0x1000 0xFF
    leaves s State.y 0x01 = true ∧ gives s 0x0603 0x0 4 = true := by decide

/-- `INC $10` leaves C. -/
theorem test_inc_wraps :
    let s := start [0xE6, 0x10] |>.packed 0x1 |>.poke 0x10 0xFF
    leaves s (State.peek · 0x10) 0x00 = true ∧ gives s 0x0602 0x3 4 = true := by decide

/-- `INX`. -/
theorem test_inx :
    let s := start [0xE8] |>.setX 0xFF
    leaves s State.x 0x00 = true ∧ gives s 0x0601 0x2 1 = true := by decide

/-- `INY`. -/
theorem test_iny :
    let s := start [0xC8] |>.setY 0x7F
    leaves s State.y 0x80 = true ∧ gives s 0x0601 0x80 1 = true := by decide

/-- `DEC $10,X` wraps in page 0. -/
theorem test_dec_zpx :
    let s := start [0xD6, 0x10] |>.setX 0xF5
    leaves s (State.peek · 0x5) 0xFF = true ∧ gives s 0x0602 0x80 4 = true := by decide

/-- `DEX`. -/
theorem test_dex :
    let s := start [0xCA]
    leaves s State.x 0xFF = true ∧ gives s 0x0601 0x80 1 = true := by decide

/-- `DEY`. -/
theorem test_dey :
    let s := start [0x88] |>.setY 1
    leaves s State.y 0x00 = true ∧ gives s 0x0601 0x2 1 = true := by decide

/-- `AND #$0F`. -/
theorem test_and :
    let s := start [0x29, 0x0F] |>.setA 0xF0
    leaves s State.a 0x00 = true ∧ gives s 0x0602 0x2 2 = true := by decide

/-- `ORA #$80`. -/
theorem test_ora :
    let s := start [0x09, 0x80] |>.setA 1
    leaves s State.a 0x81 = true ∧ gives s 0x0602 0x80 2 = true := by decide

/-- `EOR #$FF`. -/
theorem test_eor :
    let s := start [0x49, 0xFF] |>.setA 0x0F
    leaves s State.a 0xF0 = true ∧ gives s 0x0602 0x80 2 = true := by decide

/-- `BIT $10`. -/
theorem test_bit_sets :
    let s := start [0x24, 0x10] |>.setA 1 |>.poke 0x10 0x40
    leaves s State.a 0x01 = true ∧ gives s 0x0602 0x42 3 = true := by decide

/-- `BIT $1000` clears S and V. -/
theorem test_bit_clears :
    let s := start [0x2C, 0x00, 0x10] |>.setA 0xC0 |>.packed 0xc0 |>.poke 0x1000 0x3F
    leaves s State.a 0xC0 = true ∧ gives s 0x0603 0x2 4 = true := by decide

/-- `ASL A` ignores the old C. -/
theorem test_asl :
    let s := start [0x0A] |>.setA 0x40 |>.packed 0x1
    leaves s State.a 0x80 = true ∧ gives s 0x0601 0x80 1 = true := by decide

/-- `ASL $10`: one cycle more than the read. -/
theorem test_asl_memory :
    let s := start [0x06, 0x10] |>.poke 0x10 0xFF
    leaves s (State.peek · 0x10) 0xFE = true ∧ gives s 0x0602 0x81 4 = true := by decide

/-- `LSR A`. -/
theorem test_lsr :
    let s := start [0x4A] |>.setA 0x80 |>.packed 0x81
    leaves s State.a 0x40 = true ∧ gives s 0x0601 0x0 1 = true := by decide

/-- `ROL A`. -/
theorem test_rol :
    let s := start [0x2A] |>.setA 0x80 |>.packed 0x1
    leaves s State.a 0x01 = true ∧ gives s 0x0601 0x1 1 = true := by decide

/-- `ROR $0200`. -/
theorem test_ror_memory :
    let s := start [0x6E, 0x00, 0x02] |>.packed 0x1 |>.poke 0x200 0x02
    leaves s (State.peek · 0x200) 0x81 = true ∧ gives s 0x0603 0x80 5 = true := by decide

/-- `JMP $8000`. -/
theorem test_jmp : gives (start [0x4C, 0x00, 0x80]) 0x8000 0x0 3 = true := by decide

/-- `JMP ($12FF)`: no page wrap. -/
theorem test_jmp_indirect :
    gives (start [0x6C, 0xFF, 0x12] |>.poke 0x12FF 0x00 |>.poke 0x1300 0x80 |>.poke 0x1200 0x40) 0x8000 0x0 5 = true := by decide

/-- `JSR $0700` at SP = 00. -/
theorem test_jsr_wraps :
    let s := start [0x20, 0x00, 0x07] |>.setSp 0
    leaves s (State.peek · 0x1FF) 0x02 = true ∧ gives s 0x0700 0x0 5 = true := by decide

/-- `RTS` to FFFF + 1. -/
theorem test_rts_wraps :
    let s := start [0x60] |>.setSp 0xFD |>.poke 0x1FE 0xFF |>.poke 0x1FF 0xFF
    leaves s State.sp 0xFF = true ∧ gives s 0x0000 0x0 3 = true := by decide

/-- `RTI`. -/
theorem test_rti :
    let s := start [0x40] |>.setSp 0xFC |>.packed 0x1 |>.poke 0x1FD 0xC4 |>.poke 0x1FE 0x00 |>.poke 0x1FF 0x80
    leaves s State.sp 0xFF = true ∧ gives s 0x8000 0xf4 4 = true := by decide

/-- `BCC +4` taken. -/
theorem test_bcc : gives (start [0x90, 0x04]) 0x0606 0x0 3 = true := by decide

/-- `BCS -4` taken. -/
theorem test_bcs : gives (start [0xB0, 0xFC] |>.packed 0x1) 0x05FE 0x1 3 = true := by decide

/-- `BEQ +16` taken. -/
theorem test_beq : gives (start [0xF0, 0x10] |>.packed 0x2) 0x0612 0x2 3 = true := by decide

/-- `BNE +0` not taken costs 2. -/
theorem test_bne_untaken : gives (start [0xD0, 0x00] |>.packed 0x2) 0x0602 0x2 2 = true := by decide

/-- `BMI +2` taken. -/
theorem test_bmi : gives (start [0x30, 0x02] |>.packed 0x80) 0x0604 0x80 3 = true := by decide

/-- `BPL -2` taken. -/
theorem test_bpl : gives (start [0x10, 0xFE]) 0x0600 0x0 3 = true := by decide

/-- `BVC +127` taken. -/
theorem test_bvc : gives (start [0x50, 0x7F]) 0x0681 0x0 3 = true := by decide

/-- `BVS -128` taken. -/
theorem test_bvs : gives (start [0x70, 0x80] |>.packed 0x40) 0x0582 0x40 3 = true := by decide

/-- `CLC`. -/
theorem test_clc : gives (start [0x18] |>.packed 0x1) 0x0601 0x0 1 = true := by decide

/-- `SEC`. -/
theorem test_sec : gives (start [0x38]) 0x0601 0x1 1 = true := by decide

/-- `CLI`. -/
theorem test_cli : gives (start [0x58] |>.packed 0x4) 0x0601 0x0 1 = true := by decide

/-- `SEI`. -/
theorem test_sei : gives (start [0x78]) 0x0601 0x4 1 = true := by decide

/-- `CLD`. -/
theorem test_cld : gives (start [0xD8] |>.packed 0x8) 0x0601 0x0 1 = true := by decide

/-- `SED`. -/
theorem test_sed : gives (start [0xF8]) 0x0601 0x8 1 = true := by decide

/-- `CLV`. -/
theorem test_clv : gives (start [0xB8] |>.packed 0x40) 0x0601 0x0 1 = true := by decide

/-- `NOP`. -/
theorem test_nop : gives (start [0xEA]) 0x0601 0x0 1 = true := by decide

/-- `BRK` with I = 1: the request is latched, nothing is pushed. -/
theorem test_brk : after ((start [0x00]).packed 0x04) (fun t => (t.pending, t.sp, t.pc, t.cyc)) = some (some .brk, 0xFF, 0x0601, 1) := by
  decide

/-- `.byte $80`, `10`: one byte, one cycle, one event. -/
theorem test_unrec : after (start [0x80, 0x10]) (fun t => (t.diag, t.pc, t.cyc)) = some ([{ op := 0x80, addr := 0x0600 }], 0x0601, 1) := by
  decide

/-- UNREC of a recognized byte is refused; where RECOGNIZED leaves EA out, a step on EA is the one-byte no-op (R93, R259). -/
theorem test_unrec_recognized :
    exec (.unrec 0xEA) (start []) = .refused .recognizedByte ∧
    after { start [0xEA] with cfg := { resetConfig with recognized := [0x00] } } (fun t => (t.diag, t.pc, t.cyc)) =
      some ([{ op := 0xEA, addr := 0x0600 }], 0x0601, 1) := ⟨rfl, by decide⟩

/-- A host's NMI stands between two Ticks, after the first (log entry 10): the first Tick services Reset, the second the NMI. -/
theorem test_host_events :
    after { State.reset with env := { silentEnvironment with host := [[.nmi]] } } (fun t => (t.flags.i, t.flags.z, t.pending, t.env.host)) =
      some (true, true, some .nmi, []) := by decide

/-- T7, the NMI row at SP = 01: the stack wraps, the flags byte is the one from before the entry. -/
theorem test_service_nmi :
    let s := ((State.reset.poke 0xFFFA 0xCD).poke 0xFFFB 0xAB).setSp 0x01 |>.setPc 0x8000
    let t := service .nmi (s.packed 0x81)
    (t.pc, t.sp, t.flags.pack, t.cyc) = (0xABCD, 0xFE, 0x85, 3) ∧
    (t.peek 0x0101, t.peek 0x0100, t.peek 0x01FF) = (0x80, 0x00, 0x81) := by decide

/-- T7, the second BRK row: B is set after the flags are stacked. -/
theorem test_service_brk :
    let t := service .brk (((State.reset.poke 0xFFFF 0x07).setPc 0xFFFF).setSp 0x00)
    (t.pc, t.sp, t.flags.pack, t.peek 0x0100, t.peek 0x01FE) = (0x0700, 0xFD, 0x14, 0xFF, 0x00) := by decide

/-- S7: offset 0x0C bound, 0x0D not. -/
theorem test_register_dispatch :
    let s := { start [] with cfg := { resetConfig with bound := [0x0C] }, env := { silentEnvironment with reads := [⟨0x80, []⟩] } }
    (memWrite 0xFD0C 0x5A s).peek 0xFD0C = 0x00 ∧ (memWrite 0xFD0C 0x5A s).devEvents = [.write 0x0C 0x5A] ∧
    (memRead 0xFD0C s).value = 0x80 ∧ (memRead 0xFD0D (memWrite 0xFD0D 0x5A s)).value = 0x5A := by decide

/-- R67 with WORD_READ_PAGE_WRAP: the high byte of a pointer at 0xFFFF comes from 0xFF00, not from 0x0000. -/
theorem test_word_read_page_wrap :
    let s := ((start []).poke 0xFFFF 0x34).poke 0xFF00 0x56 |>.poke 0x0000 0x12
    (memReadWord 0xFFFF { s with cfg := { resetConfig with wordReadPageWrap := true } }).value = 0x5634 ∧
    (memReadWord 0xFFFF s).value = 0x1234 := by decide

/-- R291: a divisor of 20 is crossed with the remainder kept. -/
theorem test_cross :
    cross { divisor := ⟨20, by decide⟩, usesHelper := true, acc := 17 } 5 =
      { peripheral := { divisor := ⟨20, by decide⟩, usesHelper := true, acc := 2 }, returned := true } := by
  decide

/-- R296: the comparison with the budget is strict. -/
theorem test_pace_strict :
    (pace { start [] with cyc := 5, cfg := { resetConfig with clockHz := ⟨5, by decide⟩ } }).paceAcc = 5 ∧
    (pace { start [] with cyc := 6, cfg := { resetConfig with clockHz := ⟨5, by decide⟩ } }).paceAcc = 1 := by decide

/-- The first step from reset runs the instruction that `withFetchWord` places (log entry 3). -/
theorem test_first_instruction : after (State.reset.withFetchWord 8 0xE8) (fun t => (t.x, t.pc, t.cyc, t.pending)) = some (1, 1, 4, none) := by
  decide

/-! Witnesses: concrete terms and states that meet the hypotheses of the obligations, all of them together, clause by clause and
at the ends of ranges. -/

/-- A state with offset 0xFF bound, a script, a request, a peripheral one short of its divisor, BCD and sign flags. -/
def busy : State :=
  { start [0xAD, 0xFF, 0xFD] with
    cfg := { resetConfig with bound := [0xFF] }
    env := { reads := [⟨0x80, [.irq, .nmi]⟩], writes := [[.brk]], ticks := [[.irq]], host := [[.reset]] }
    peripherals := [{ divisor := ⟨8, by decide⟩, usesHelper := true, acc := 7 }] }

theorem test_witness_DecodeOfEncodeIsTheInstruction :
    Instr.wellFormed (.lda (.izy 0xFF)) = true ∧ Instr.selectedBy recognizedBytes (.lda (.izy 0xFF)) = true ∧
      Instr.wellFormed (.unrec 0xFF) = true ∧ Instr.selectedBy recognizedBytes (.unrec 0xFF) = true := by decide

theorem test_witness_EveryDecodingIsAnEncoding : decode [0xAD, 0xFF, 0xFF, 0x01] = .ok (.lda (.abs 0xFFFF), [0x01]) := by decide

theorem test_witness_DecodingIsTotal :
    ((0x02 : Byte) ∈ [(0x02 : Byte)] ∧ (0x02 : Byte) ∈ unrecognizedBytes) ∧
      ¬((0xFF : Byte) ∈ recognizedBytes ∧ (0xFF : Byte) ∈ unrecognizedBytes) ∧ (0xFF : Byte) ∉ recognizedBytes ∧
      (0x00 : Byte) ∈ recognizedBytes ∧ (0x00 : Byte) ∉ unrecognizedBytes := by decide

theorem test_witness_TickServicesFirstAndTheHostCallsLast :
    (start []).pending = none ∧ State.reset.pending = some .reset ∧ (start []).env.host = [] ∧ busy.env.host = [.reset] :: [] ∧
      (match stepInstr (beginTick busy) with | .next _ => true | _ => false) = true := by decide

/-- Both cases. -/
theorem test_witness_EveryTickCompletes :
    let s : State := { start [0x02] with cfg := { resetConfig with recognized := [0x02] } }
    ((fetch8 (beginTick s)).value ∈ s.cfg.recognized ∧ (fetch8 (beginTick s)).value ∈ unrecognizedBytes) ∧
      ¬((fetch8 (beginTick busy)).value ∈ busy.cfg.recognized ∧ (fetch8 (beginTick busy)).value ∈ unrecognizedBytes) := by decide

/-- For StepRunsTheDecodedInstruction, FetchTakesTheBytesAtPc and InstructionsCostTheirCycles. -/
theorem test_witness_codeAt :
    (beginTick (start [0xAD, 0x34, 0x12])).codeAt (.lda (.abs 0x1234)) [0xAD, 0x34, 0x12] := ⟨by decide, by decide⟩

/-- The same, with the instruction across the top of memory (R22). -/
theorem test_witness_codeAt_top :
    ({ start [] with pc := 0xFFFF, mem := [(0, 0x10), (65535, 0xA9)] } : State).codeAt (.lda (.imm 0x10)) [0xA9, 0x10] := ⟨by decide, by decide⟩

theorem test_witness_ExecCompletesExactlyOnInstructions :
    Instr.wellFormed (.sta (.izy 0xFF)) = true ∧ Instr.wellFormed (.sta (.imm 0)) = false ∧
      (0xFF : Byte) ∉ (start []).cfg.recognized ∧ (0xEA : Byte) ∈ (start []).cfg.recognized := by decide

/-- For MemoryStaysCanonical, AccumulatorsStayBelowDivisors, TickCountsOneToEightCycles, BreakAndReservedAreNeverCleared and
ConfigurationIsFixedAndDiagnosticsGrow: a state that meets them and has a next state. -/
theorem test_witness_invariants :
    busy.mem.wf = true ∧ busy.cfg.extraCost = [] ∧ (∀ p ∈ busy.peripherals, 8 ≤ p.divisor.val ∧ p.acc < p.divisor.val) ∧
      (after (busy.packed 0x30) fun t => (t.flags.b, t.flags.r)) = some (true, true) := by decide

theorem test_witness_ScriptedRunsIgnoreCycleCounts :
    State.reset.untimed = ({ State.reset with cyc := 9, paceAcc := 3, cfg := { resetConfig with extraCost := [(0xEA, 4)] } } : State).untimed ∧
      (after State.reset State.a).isSome = true := by decide

/-- An image that ends at the last address, and one byte more. -/
theorem test_witness_ConstructionCopiesTheImage :
    0xFFFE + ([1, 2] : List Byte).length ≤ 65536 ∧ 65536 < 0xFFFE + ([1, 2, 3] : List Byte).length := by decide

theorem test_witness_FirstFetchIsAtTheResetVector :
    State.construct ⟨1, 2, 3, 4, 5, (start []).flags⟩ resetConfig [] silentEnvironment [0x00, 0x06] 0xFFFC =
        .next { State.reset with a := 1, x := 2, y := 3, sp := 4, pc := 5, mem := [(0xFFFD, 0x06)] } := rfl

theorem test_witness_SignalInterruptLatchesOrDrops :
    (State.reset.packed 0x04).flags.i = true ∧ State.reset.pending ≠ none ∧ (start []).flags.i = false ∧ (start []).pending = none := by decide

theorem test_witness_LastUnmaskableRequestWins :
    (∀ j ∈ ([.irq, .irq] : List IntKind), j = .irq) ∧ IntKind.nmi ≠ .irq ∧ (∀ j ∈ ([] : List IntKind), j = .irq) := by decide

theorem test_witness_ServiceEntersTheHandler :
    IntKind.reset = .reset ∧ IntKind.brk ≠ .reset ∧ (0x0000 : Addr) ≠ stackAddr 0x02 ∧ (0x0000 : Addr) ≠ stackAddr (0x02 - 1) ∧
      (0x0000 : Addr) ≠ stackAddr (0x02 - 2) := by decide

theorem test_witness_RtiUndoesTheEntry :
    IntKind.irq ≠ .reset ∧ (exec .rti (service .irq (start [])) |> fun | .next t => t.pc | _ => 0) = 0x0600 := by decide

theorem test_witness_BusDispatchesTheRegisterPage :
    hi8 0xFDFF = 0xFD ∧ lo8 0xFDFF ∈ busy.cfg.bound ∧ ¬(hi8 0xFD00 = 0xFD ∧ lo8 0xFD00 ∈ busy.cfg.bound) ∧
      ¬(hi8 0xFEFF = 0xFD ∧ lo8 0xFEFF ∈ busy.cfg.bound) := by decide

theorem test_witness_HandlersCallAndTouchNoCpuState :
    busy.env.reads = ⟨0x80, [.irq, .nmi]⟩ :: [] ∧ busy.env.writes = [.brk] :: [] ∧ (start []).env.reads = [] ∧ (start []).env.writes = [] := by decide

theorem test_witness_UnboundOffsetIsStorage : (0xFE : Byte) ∉ busy.cfg.bound := by decide

theorem test_witness_LoadsTakeTheOperand :
    Instr.wellFormed (.lda (.izx 0xFF)) = true ∧ Instr.wellFormed (.ldx (.aby 0xFFFF)) = true ∧ Instr.wellFormed (.ldy (.zpx 0)) = true := by decide

/-- A bound and an unbound target. -/
theorem test_witness_StoresWriteTheirRegister :
    effectiveAddr (.abs 0xFDFF) busy = some 0xFDFF ∧ Instr.wellFormed (.sta (.abs 0xFDFF)) = true ∧ busy.isBound 0xFDFF = true ∧
      Instr.wellFormed (.stx (.abs 0xFDFE)) = true ∧ Instr.wellFormed (.sty (.abs 0xFDFE)) = true ∧ busy.isBound 0xFDFE = false := by decide

theorem test_witness_UpdaterDerivesCarryZeroSign : (-256 : Int) ≤ -256 ∧ (-256 : Int) ≤ 511 ∧ (511 : Int) ≤ 511 := by decide

theorem test_witness_BcdDecodesAndEncodes : validBCD 0x99 = true ∧ validBCD 0x00 = true ∧ 99 < 100 := by decide

/-- For AdcAddsInBinary and SbcSubtractsInBinary. -/
theorem test_witness_AdcAddsInBinary :
    Instr.wellFormed (.adc (.imm 0xFF)) = true ∧ Instr.wellFormed (.sbc (.imm 0xFF)) = true ∧ (start []).flags.d = false := by decide

theorem test_witness_DecimalModeAddsAndSubtractsDigits :
    let s := (State.setA (start []) 0x99).packed 0x08
    s.flags.d = true ∧ validBCD s.a = true ∧ validBCD (operandValue (.imm 0x99) s).value = true ∧
      Instr.wellFormed (.adc (.imm 0x99)) = true ∧ Instr.wellFormed (.sbc (.imm 0x99)) = true := by decide

theorem test_witness_InvalidBcdLeavesFreeValues :
    let s := (State.setA (start []) 0x99).packed 0x08
    s.flags.d = true ∧ (validBCD s.a = true → validBCD (operandValue (.imm 0x9A) s).value = false) ∧
      Instr.wellFormed (.adc (.imm 0x9A)) = true ∧ Instr.wellFormed (.sbc (.imm 0x9A)) = true := by decide

theorem test_witness_ComparesSetCarryZeroSign :
    Instr.wellFormed (.cmp (.aby 0xFFFF)) = true ∧ Instr.wellFormed (.cpx (.imm 0)) = true ∧ Instr.wellFormed (.cpy (.abs 0)) = true := by decide

theorem test_witness_ReadModifyWriteChangesItsOperand :
    Instr.wellFormed (.ror .acc) = true ∧ modifiedForm (.ror .acc) = some .acc ∧ Instr.wellFormed (.inc (.abs 0xFDFF)) = true ∧
      modifiedForm (.inc (.abs 0xFDFF)) = some (.abs 0xFDFF) ∧ effectiveAddr (.abs 0xFDFF) busy = some 0xFDFF ∧
      busy.isBound 0xFDFF = true ∧ (start []).isBound 0xFDFF = false := by decide

theorem test_witness_LogicCombinesAWithTheOperand :
    Instr.wellFormed (.and (.imm 0)) = true ∧ Instr.wellFormed (.ora (.izy 0)) = true ∧ Instr.wellFormed (.eor (.abx 0xFFFF)) = true ∧
      Instr.wellFormed (.bit (.abs 0xFFFF)) = true := by decide

theorem test_witness_JumpsLoadThePc :
    busy.isBound 0xFCFE = false ∧ busy.isBound (secondAddr busy.cfg.wordReadPageWrap 0xFCFE) = false := by decide

theorem test_witness_RtsReturnsAfterTheJsr :
    ((exec (.jsr 0x0700) (start []) |> fun | .next t => (exec .rts t |> fun | .next u => u.pc | _ => 0) | _ => 0) : Addr) = 0x0600 := by decide

theorem test_witness_UnrecognizedByteOnlyEmitsItsEvent :
    (0xFF : Byte) ∉ (start [0xFF]).cfg.recognized ∧ (start [0xFF]).isBound (start [0xFF]).pc = false ∧
      (start [0xFF]).peek (start [0xFF]).pc = 0xFF := by decide

/-- For OnlyTheListedInstructionsWriteRegisters, OnlyTheListedInstructionsWriteFlags, OnlyStoringInstructionsChangeMemory and
InstructionsLeaveTheOutside: an instruction that answers next, changes a register and stores nothing, no offset bound. -/
theorem test_witness_frames :
    (exec .tax ((start []).setA 1) |> fun | .next t => t.x | _ => 0) ≠ (start []).x ∧ stores .tax = false ∧ (start []).cfg.bound = [] := by decide

theorem test_witness_frames_flags :
    (exec .sec (start []) |> fun | .next t => t.flags.c | _ => false) ≠ (start []).flags.c ∧
      (exec .plp (start []) |> fun | .next t => (t.flags.b, t.flags.r) | _ => (false, false)) = (true, true) := by decide

theorem test_witness_DivisorHelperCarriesTheRemainder :
    let p : Peripheral := { divisor := ⟨8, by decide⟩, usesHelper := true, acc := 7 }
    p.acc < p.divisor.val ∧ p.divisor.val ≤ p.acc + 1 ∧ ¬(p.divisor.val ≤ p.acc + 0) := by decide

theorem test_witness_EndOfTickReportsTheTotal :
    (start []).env.ticks = [] ∧ busy.env.ticks = [PeripheralRequest.irq] :: [] := by decide

end Sys2Proof.Tests
end

/-! SUPPORT for the encoding statements. The table of R96 (the encoder) and the matrix of R95 (the decoder) are compared
through the cell that an instruction asks for: `Instr.cell`. -/

namespace Sys2Proof

/-! The cell of an instruction. -/

/-- The addressing mode of an operand form. -/
def Operand.mode : Operand → Mode
  | .acc => .acc
  | .imm _ => .imm
  | .zp _ => .zp
  | .zpx _ => .zpx
  | .zpy _ => .zpy
  | .abs _ => .abs
  | .abx _ => .abx
  | .aby _ => .aby
  | .izx _ => .izx
  | .izy _ => .izy

/-- The cell that the matrix of R95 must hold for an instruction: its mnemonic and format, without its operand bytes. -/
def Instr.cell : Instr → Cell
  | .lda m => .mode m.mode .lda
  | .ldx m => .mode m.mode .ldx
  | .ldy m => .mode m.mode .ldy
  | .sta m => .mode m.mode .sta
  | .stx m => .mode m.mode .stx
  | .sty m => .mode m.mode .sty
  | .adc m => .mode m.mode .adc
  | .sbc m => .mode m.mode .sbc
  | .cmp m => .mode m.mode .cmp
  | .cpx m => .mode m.mode .cpx
  | .cpy m => .mode m.mode .cpy
  | .inc m => .mode m.mode .inc
  | .dec m => .mode m.mode .dec
  | .and m => .mode m.mode .and
  | .ora m => .mode m.mode .ora
  | .eor m => .mode m.mode .eor
  | .bit m => .mode m.mode .bit
  | .asl m => .mode m.mode .asl
  | .lsr m => .mode m.mode .lsr
  | .rol m => .mode m.mode .rol
  | .ror m => .mode m.mode .ror
  | .jmpAbs _ => .abs16 .jmpAbs
  | .jmpInd _ => .ind16 .jmpInd
  | .jsr _ => .abs16 .jsr
  | .bcc _ => .rel .bcc
  | .bcs _ => .rel .bcs
  | .beq _ => .rel .beq
  | .bne _ => .rel .bne
  | .bmi _ => .rel .bmi
  | .bpl _ => .rel .bpl
  | .bvc _ => .rel .bvc
  | .bvs _ => .rel .bvs
  | .unrec _ => .none
  | i => .imp i

theorem Operand.bytes_length (m : Operand) : m.bytes.length = m.mode.operandBytes := by cases m <;> rfl

/-- The operand bytes of a form assemble to it again (R92). -/
theorem Operand.operand_bytes (m : Operand) : m.mode.operand (m.bytes.getD 0 0) (m.bytes.getD 1 0) = m := by
  cases m <;> simp [Operand.mode, Mode.operand, Operand.bytes, addrBytes]

/-- An assembled operand gives back the bytes that its mode takes, and no other (R92). -/
theorem Mode.bytes_operand (f : Mode) (b1 b2 : Byte) : (f.operand b1 b2).bytes = [b1, b2].take f.operandBytes := by
  cases f <;> simp [Mode.operand, Operand.bytes, Mode.operandBytes, addrBytes]

/-- The column of the table of R96 is the mode's: the operand bytes do not choose it. -/
theorem Operand.column_operand (row : List (Option Byte)) (m : Operand) (b1 b2 : Byte) :
    (m.mode.operand b1 b2).column row = m.column row := by cases m <;> rfl

/-- The matrix of R95 holds, at the opcode that the table of R96 gives an instruction, that instruction's cell. -/
theorem opcodeCell_of_opcode {i : Instr} {op : Byte} (h : i.opcode = some op) (hu : i.isUnrec = false) :
    opcodeCell op = i.cell := by
  cases i with
  | unrec _ => cases hu
  | lda m | ldx m | ldy m | sta m | stx m | sty m | adc m | sbc m | cmp m | cpx m | cpy m | inc m | dec m
  | and m | ora m | eor m | bit m | asl m | lsr m | rol m | ror m => cases m <;> cases h <;> rfl
  | _ => cases h; rfl

/-- The cell is `-`. -/
def Cell.isNone : Cell → Bool
  | .none => true
  | .imp _ | .mode _ _ | .rel _ | .abs16 _ | .ind16 _ => false

theorem mem_unrecognizedBytes_iff_isNone (op : Byte) : op ∈ unrecognizedBytes ↔ (opcodeCell op).isNone = true := by
  rw [mem_unrecognizedBytes]; cases opcodeCell op <;> simp [Cell.isNone]

/-- The default of RECOGNIZED lists the bytes whose cell of the matrix is not `-`. -/
theorem recognizedBytes_eq_filter :
    recognizedBytes = ((List.range 256).map (BitVec.ofNat 8)).filter fun b => !(opcodeCell b).isNone := by decide

theorem mem_recognizedBytes (op : Byte) : op ∈ recognizedBytes ↔ op ∉ unrecognizedBytes := by
  have hall : op ∈ (List.range 256).map (BitVec.ofNat 8) :=
    List.mem_map.mpr ⟨op.toNat, List.mem_range.mpr op.isLt, by simp⟩
  rw [recognizedBytes_eq_filter, List.mem_filter, mem_unrecognizedBytes_iff_isNone]
  simp [hall]

/-- Every byte outside the 105 of R97 is the opcode of an instruction. -/
theorem exists_opcode_of_notMem (op : Byte) (h : op ∉ unrecognizedBytes) :
    ∃ i : Instr, i.opcode = some op ∧ i.isUnrec = false := by
  have key : ∀ b : Byte, ((opcodeCell b).instr b 0 0).opcode = some b ∧
      ((opcodeCell b).instr b 0 0).isUnrec = (opcodeCell b).isNone := by decide
  obtain ⟨hop, hu⟩ := key op
  rw [mem_unrecognizedBytes_iff_isNone, Bool.not_eq_true] at h
  exact ⟨_, hop, hu.trans h⟩

/-! What an instruction's cell makes of an opcode byte and operand bytes. -/

/-- From the instruction's own bytes its cell makes the instruction (R92, R93). -/
theorem Instr.cell_instr_operandPart {i : Instr} {op : Byte} (h : i.opcode = some op) :
    i.cell.instr op (i.operandPart.getD 0 0) (i.operandPart.getD 1 0) = i := by
  cases i with
  | unrec _ => cases h; rfl
  | lda m | ldx m | ldy m | sta m | stx m | sty m | adc m | sbc m | cmp m | cpx m | cpy m | inc m | dec m
  | and m | ora m | eor m | bit m | asl m | lsr m | rol m | ror m => exact congrArg _ m.operand_bytes
  | jmpAbs w | jmpInd w | jsr w => exact congrArg _ (join_hi8_lo8 w)
  | _ => rfl

theorem Instr.operandPart_length (i : Instr) : i.operandPart.length = i.cell.operandBytes := by
  cases i with
  | lda m | ldx m | ldy m | sta m | stx m | sty m | adc m | sbc m | cmp m | cpx m | cpy m | inc m | dec m
  | and m | ora m | eor m | bit m | asl m | lsr m | rol m | ror m => exact m.bytes_length
  | _ => rfl

/-- Other operand bytes give another instruction of the same opcode. -/
theorem Instr.opcode_cell_instr {i : Instr} {op : Byte} (h : i.opcode = some op) (b1 b2 : Byte) :
    (i.cell.instr op b1 b2).opcode = some op := by
  cases i with
  | unrec _ => rfl
  | lda m | ldx m | ldy m | sta m | stx m | sty m | adc m | sbc m | cmp m | cpx m | cpy m | inc m | dec m
  | and m | ora m | eor m | bit m | asl m | lsr m | rol m | ror m =>
    exact (Operand.column_operand _ m b1 b2).trans h
  | _ => exact h

theorem Instr.isUnrec_cell_instr (i : Instr) (op b1 b2 : Byte) : (i.cell.instr op b1 b2).isUnrec = i.isUnrec := by
  cases i <;> rfl

/-- Its operand bytes are those given, as many as the cell takes. -/
theorem Instr.operandPart_cell_instr (i : Instr) (op b1 b2 : Byte) :
    (i.cell.instr op b1 b2).operandPart = [b1, b2].take i.cell.operandBytes := by
  cases i with
  | lda m | ldx m | ldy m | sta m | stx m | sty m | adc m | sbc m | cmp m | cpx m | cpy m | inc m | dec m
  | and m | ora m | eor m | bit m | asl m | lsr m | rol m | ror m => exact m.mode.bytes_operand b1 b2
  | jmpAbs w | jmpInd w | jsr w => simp [Instr.cell, Cell.instr, Instr.operandPart, Cell.operandBytes, addrBytes]
  | _ => rfl

/-! Selection by RECOGNIZED (R93). -/

theorem Instr.selectedBy_of_opcode {i : Instr} {op : Byte} (recognized : List Byte) (h : i.opcode = some op) :
    i.selectedBy recognized = true ↔ (op ∈ recognized ↔ i.isUnrec = false) := by
  cases hu : i.isUnrec <;> simp [Instr.selectedBy, h, hu]

/-- The opcode of a selected instruction decodes by the instruction's cell. -/
theorem selectedCell_of_selectedBy {recognized : List Byte} {i : Instr} {op : Byte} (h : i.opcode = some op)
    (hs : i.selectedBy recognized = true) : selectedCell recognized op = i.cell := by
  have hsel := (i.selectedBy_of_opcode recognized h).mp hs
  cases hu : i.isUnrec with
  | false => rw [selectedCell_of_mem (hsel.mpr hu), opcodeCell_of_opcode h hu]
  | true =>
    rw [selectedCell_of_notMem (by simp [hsel, hu])]
    cases i with
    | unrec _ => rfl
    | _ => cases hu

/-- Of a selected instruction's opcode it cannot be that RECOGNIZED holds it although R96 gives it no instruction. -/
theorem selectedBy_not_noInstruction {recognized : List Byte} {i : Instr} {op : Byte} (h : i.opcode = some op)
    (hs : i.selectedBy recognized = true) : ¬(op ∈ recognized ∧ op ∈ unrecognizedBytes) := by
  rintro ⟨hr, hn⟩
  have hu := ((i.selectedBy_of_opcode recognized h).mp hs).mp hr
  have hcell := (opcodeCell_of_opcode h hu).symm.trans ((mem_unrecognizedBytes op).mp hn)
  cases i with
  | unrec _ => cases hu
  | _ => cases hcell

/-- Every other byte is the opcode of a selected instruction: of UNREC where RECOGNIZED does not hold it. -/
theorem exists_selectedBy (recognized : List Byte) (op : Byte) (h : ¬(op ∈ recognized ∧ op ∈ unrecognizedBytes)) :
    ∃ i : Instr, i.opcode = some op ∧ i.selectedBy recognized = true := by
  by_cases hr : op ∈ recognized
  · obtain ⟨i, hop, hu⟩ := exists_opcode_of_notMem op (fun hn => h ⟨hr, hn⟩)
    exact ⟨i, hop, (i.selectedBy_of_opcode recognized hop).mpr (by simp [hr, hu])⟩
  · exact ⟨.unrec op, rfl, (Instr.selectedBy_of_opcode recognized rfl).mpr (by simp [hr, Instr.isUnrec])⟩

/-! Decoding and encoding. -/

/-- The encoder gives bytes to exactly the well-formed terms (R96, R97), from the lemma of each constructor. -/
theorem encode_isSome (i : Instr) : i.encode.isSome = i.wellFormed := by
  open Laws.EncodesWhenWellFormed in
  cases i
  exacts [lda _, ldx _, ldy _, sta _, stx _, sty _, tax, tay, txa, tya, tsx, txs, pha, php, pla, plp, adc _, sbc _, cmp _,
    cpx _, cpy _, inc _, inx, iny, dec _, dex, dey, and _, ora _, eor _, bit _, asl _, lsr _, rol _, ror _, jmpAbs _,
    jmpInd _, jsr _, rts, rti, brk, bcc _, bcs _, beq _, bne _, bmi _, bpl _, bvc _, bvs _, clc, sec, cli, sei, cld, sed,
    clv, nop, unrec _]

theorem Instr.encode_of_opcode {i : Instr} {op : Byte} (h : i.opcode = some op) : i.encode = some (op :: i.operandPart) := by
  simp [Instr.encode, h]

theorem Instr.exists_opcode_of_wellFormed {i : Instr} (h : i.wellFormed = true) : ∃ op, i.opcode = some op := by
  rw [← encode_isSome, Instr.encode, Option.isSome_map] at h
  exact Option.isSome_iff_exists.mp h

/-- What the decoder makes of a byte list: an opcode byte with as many operand bytes as it takes, and the rest. -/
theorem decodeWith_eq_ok_iff {recognized bytes : List Byte} {i : Instr} {rest : List Byte} :
    decodeWith recognized bytes = .ok (i, rest) ↔
      ∃ op code, bytes = op :: code ++ rest ∧ ¬(op ∈ recognized ∧ op ∈ unrecognizedBytes) ∧
        code.length = operandBytes recognized op ∧ i = decodeBytes recognized op (code.getD 0 0) (code.getD 1 0) := by
  constructor
  · intro h
    cases bytes with
    | nil => cases h
    | cons op tail =>
      by_cases hn : op ∈ recognized ∧ op ∈ unrecognizedBytes
      · rw [decodeWith_noInstruction tail hn] at h; cases h
      · rw [decodeWith_cons tail hn] at h
        split at h
        next hlen => cases h; exact ⟨op, [], rfl, hn, hlen.symm, rfl⟩
        next b1 _ hlen => cases h; exact ⟨op, [b1], rfl, hn, hlen.symm, rfl⟩
        next b1 b2 _ hlen => cases h; exact ⟨op, [b1, b2], rfl, hn, hlen.symm, rfl⟩
        next => cases h
  · rintro ⟨op, code, rfl, hn, hlen, rfl⟩
    have hle := Machine.operandBytes_le recognized op
    rw [List.cons_append, decodeWith_cons _ hn]
    match code, hlen with
    | [], hlen => simp [← hlen]
    | [_], hlen => simp [← hlen]
    | [_, _], hlen => simp [← hlen]
    | _ :: _ :: _ :: _, hlen => simp only [List.length_cons] at hlen; omega

/-- What decodes is an instruction of that opcode which the set selects, with the operand bytes it was made of. -/
theorem decodeBytes_spec {recognized : List Byte} {op : Byte} (h : ¬(op ∈ recognized ∧ op ∈ unrecognizedBytes))
    (b1 b2 : Byte) :
    let i := decodeBytes recognized op b1 b2
    i.opcode = some op ∧ i.selectedBy recognized = true ∧ i.operandPart = [b1, b2].take (operandBytes recognized op) := by
  obtain ⟨j, hop, hs⟩ := exists_selectedBy recognized op h
  have hcell := selectedCell_of_selectedBy hop hs
  have hop' := j.opcode_cell_instr hop b1 b2
  simp only [decodeBytes, operandBytes, hcell]
  refine ⟨hop', ?_, j.operandPart_cell_instr op b1 b2⟩
  rwa [Instr.selectedBy_of_opcode recognized hop', j.isUnrec_cell_instr, ← Instr.selectedBy_of_opcode recognized hop]

theorem decodeBytes_wellFormed {recognized : List Byte} {op : Byte} (h : ¬(op ∈ recognized ∧ op ∈ unrecognizedBytes))
    (b1 b2 : Byte) : (decodeBytes recognized op b1 b2).wellFormed = true := by
  rw [← encode_isSome, Instr.encode_of_opcode (decodeBytes_spec h b1 b2).1, Option.isSome_some]

/-- The bytes of a list of length at most two, filled up with zeros and cut again. -/
theorem take_getD_of_length_le {code : List Byte} (h : code.length ≤ 2) :
    [code.getD 0 0, code.getD 1 0].take code.length = code := by
  match code, h with
  | [], _ | [_], _ | [_, _], _ => rfl

/-- Settles O1: the encoder's bytes are the instruction's cell's bytes, and the cell makes the instruction of them. -/
theorem decodeOfEncodeIsTheInstruction : Obligations.DecodeOfEncodeIsTheInstruction := by
  intro recognized i hwf hs
  obtain ⟨op, hop⟩ := Instr.exists_opcode_of_wellFormed hwf
  have hcell := selectedCell_of_selectedBy hop hs
  refine ⟨_, Instr.encode_of_opcode hop, fun rest => decodeWith_eq_ok_iff.mpr ⟨op, i.operandPart, rfl, ?_, ?_, ?_⟩⟩
  · exact selectedBy_not_noInstruction hop hs
  · rw [operandBytes, hcell, i.operandPart_length]
  · rw [decodeBytes, hcell, Instr.cell_instr_operandPart hop]

/-- Settles O2: a decoded instruction is one of the cell's, whose operand bytes are those it was made of. -/
theorem everyDecodingIsAnEncoding : Obligations.EveryDecodingIsAnEncoding := by
  intro recognized bytes i rest h
  obtain ⟨op, code, rfl, hn, hlen, rfl⟩ := decodeWith_eq_ok_iff.mp h
  obtain ⟨hop, hs, hpart⟩ := decodeBytes_spec hn (code.getD 0 0) (code.getD 1 0)
  refine ⟨decodeBytes_wellFormed hn _ _, hs, op :: code, ?_, rfl⟩
  rw [Instr.encode_of_opcode hop, hpart, ← hlen,
    take_getD_of_length_le (hlen ▸ Machine.operandBytes_le recognized op)]

/-- Settles O3: every opcode byte but the rejected ones has a cell, and three bytes are enough for each. -/
theorem decodingIsTotal : Obligations.DecodingIsTotal := by
  refine ⟨fun recognized op b1 b2 rest => ⟨decodeWith_noInstruction _, fun hn => ?_⟩, mem_recognizedBytes⟩
  have hlen : ([b1, b2].take (operandBytes recognized op)).length = operandBytes recognized op :=
    List.length_take_of_le (Machine.operandBytes_le recognized op)
  have hbytes : op :: b1 :: b2 :: rest = op :: [b1, b2].take (operandBytes recognized op) ++
      ([b1, b2].drop (operandBytes recognized op) ++ rest) := by simp [← List.append_assoc]
  refine ⟨_, _, decodeWith_eq_ok_iff.mpr ⟨op, _, hbytes, hn, hlen, rfl⟩, fun hr => ?_, fun hr o ho => ?_⟩
  · simp [decodeBytes, operandBytes, selectedCell_of_notMem hr, Cell.instr, Cell.operandBytes]
  · obtain ⟨hop, hs, -⟩ := decodeBytes_spec hn _ _
    have hu := ((Instr.selectedBy_of_opcode recognized hop).mp hs).mp hr
    rw [ho] at hu
    cases hu

end Sys2Proof

/-! SUPPORT for the statements about a whole Tick: that meanings complete, and what only the Tick around an instruction
changes. -/

namespace Sys2Proof.Machine

/-! When a meaning completes. -/

/-- Every meaning but UNREC's is a next state behind the check of the operand form, and that check is `wellFormed`. -/
theorem exec_eq_whenForm {i : Instr} (h : i.isUnrec = false) (s : State) : ∃ t, exec i s = whenForm i.wellFormed t := by
  cases i with
  | unrec _ => cases h
  | _ => exact ⟨_, rfl⟩

theorem execUnrec_of_mem {op : Byte} {s : State} (h : op ∈ s.cfg.recognized) :
    exec (.unrec op) s = .refused .recognizedByte := if_pos (by simpa using h)

theorem execUnrec_of_notMem {op : Byte} {s : State} (h : op ∉ s.cfg.recognized) :
    exec (.unrec op) s = .next (emitDiag op (s.pc - 1) s) := if_neg (by simpa using h)

theorem exec_completes {i : Instr} {s : State} (hwf : i.wellFormed = true)
    (hrec : ∀ op, i = .unrec op → op ∉ s.cfg.recognized) : Completes (exec i s) := by
  cases hu : i.isUnrec with
  | false =>
    obtain ⟨t, ht⟩ := exec_eq_whenForm hu s
    exact ⟨t, by rw [ht, hwf]; rfl⟩
  | true =>
    cases i with
    | unrec op => exact ⟨_, execUnrec_of_notMem (hrec op rfl)⟩
    | _ => cases hu

theorem exec_of_illFormed {i : Instr} {s : State} (hwf : i.wellFormed = false) : exec i s = .refused .noSuchForm := by
  cases hu : i.isUnrec with
  | false =>
    obtain ⟨t, ht⟩ := exec_eq_whenForm hu s
    rw [ht, hwf]; rfl
  | true =>
    cases i with
    | unrec op => cases hwf
    | _ => cases hu

/-- Settles O9: the check of the operand form decides, and for UNREC the set RECOGNIZED. -/
theorem execCompletesExactlyOnInstructions : Obligations.ExecCompletesExactlyOnInstructions := by
  refine fun i s => ⟨exec_completes, exec_of_illFormed, ?_⟩
  rintro op rfl h
  exact execUnrec_of_mem h

/-! What only the Tick around an instruction changes. -/

/-- The fields that neither the service nor an instruction writes: the accumulators, the helper's returns, the
configuration, and the parts of the script that are read when the instruction has ended. -/
def KeepsTheTick (s t : State) : Prop :=
  t.peripherals = s.peripherals ∧ t.paceAcc = s.paceAcc ∧ t.crossed = s.crossed ∧ t.cfg = s.cfg ∧
    t.env.ticks = s.env.ticks ∧ t.env.host = s.env.host

theorem KeepsTheTick.refl (s : State) : KeepsTheTick s s := ⟨rfl, rfl, rfl, rfl, rfl, rfl⟩

theorem KeepsTheTick.trans {s t u : State} (h : KeepsTheTick s t) (h' : KeepsTheTick t u) : KeepsTheTick s u := by
  obtain ⟨hper, hpace, hcross, hcfg, hticks, hhost⟩ := h
  obtain ⟨hper', hpace', hcross', hcfg', hticks', hhost'⟩ := h'
  exact ⟨hper'.trans hper, hpace'.trans hpace, hcross'.trans hcross, hcfg'.trans hcfg, hticks'.trans hticks,
    hhost'.trans hhost⟩

theorem KeepsTheTick.cfg {s t : State} (h : KeepsTheTick s t) : t.cfg = s.cfg := by
  obtain ⟨-, -, -, hcfg, -⟩ := h; exact hcfg

theorem KeepsTheTick.host {s t : State} (h : KeepsTheTick s t) : t.env.host = s.env.host := by
  obtain ⟨-, -, -, -, -, hhost⟩ := h; exact hhost

theorem HandlersOnly.keepsTheTick {s t : State} (h : HandlersOnly s t) : KeepsTheTick s t := by
  obtain ⟨_, _, _, _, _, rfl⟩ := h; exact KeepsTheTick.refl s

theorem memWrite_keepsTheTick (a : Addr) (v : Byte) (s : State) : KeepsTheTick s (memWrite a v s) := by
  obtain ⟨-, h⟩ | ⟨-, h⟩ := memWrite_cases a v s
  · rw [h]; exact KeepsTheTick.refl s
  · exact h.keepsTheTick

theorem memReadWord_keepsTheTick (a : Addr) (s : State) : KeepsTheTick s (memReadWord a s).state :=
  (memReadWord_only a s).keepsTheTick

theorem push8_keepsTheTick (v : Byte) (s : State) : KeepsTheTick s (push8 v s) := by
  rw [push8_eq]; exact KeepsTheTick.refl s

theorem push16_keepsTheTick (w : Addr) (s : State) : KeepsTheTick s (push16 w s) := by
  rw [push16_eq]; exact KeepsTheTick.refl s

theorem pull8_keepsTheTick (s : State) : KeepsTheTick s (pull8 s).state := by
  rw [pull8_eq]; exact KeepsTheTick.refl s

theorem pull16_keepsTheTick (s : State) : KeepsTheTick s (pull16 s).state := by
  rw [pull16_eq]; exact KeepsTheTick.refl s

theorem returnFromInterrupt_keepsTheTick (s : State) : KeepsTheTick s (returnFromInterrupt s) := by
  rw [returnFromInterrupt_eq]; exact KeepsTheTick.refl s

theorem readOperand_keepsTheTick (m : Operand) (s : State) : KeepsTheTick s (readOperand m s).state := by
  obtain ⟨n, h⟩ := operandValue_only m s
  rw [readOperand_eq]
  exact h.keepsTheTick

theorem writeRef_keepsTheTick (r : Ref) (v : Byte) (s : State) : KeepsTheTick s (writeRef r v s) := by
  cases r with
  | acc | imm _ => exact KeepsTheTick.refl s
  | mem a => exact memWrite_keepsTheTick a v (s.addCyc 1)

theorem writeOperand_keepsTheTick (m : Operand) (v : Byte) (s : State) : KeepsTheTick s (writeOperand m v s) := by
  rw [writeOperand, resolve_eq]
  exact writeRef_keepsTheTick _ v (s.addCyc (pointerCycles m))

theorem modifyOperand_keepsTheTick (op : Byte → Flags → Outcome8) (m : Operand) (s : State) :
    KeepsTheTick s (modifyOperand op m s) :=
  (readOperand_keepsTheTick m s).trans (writeRef_keepsTheTick _ _ (State.setFlags _ _))

theorem addWithCarry_keepsTheTick (v : Byte) (s : State) : KeepsTheTick s (addWithCarry v s) := by
  obtain ⟨_, _, _, h, -⟩ := addWithCarry_only v s
  rw [h]; exact KeepsTheTick.refl s

theorem subWithBorrow_keepsTheTick (v : Byte) (s : State) : KeepsTheTick s (subWithBorrow v s) := by
  obtain ⟨_, _, _, h, -⟩ := subWithBorrow_only v s
  rw [h]; exact KeepsTheTick.refl s

theorem branch_keepsTheTick (taken : Bool) (rel : Byte) (s : State) : KeepsTheTick s (branch taken rel s) := by
  cases taken <;> exact KeepsTheTick.refl s

theorem exec_keepsTheTick {i : Instr} {s t : State} (h : exec i s = .next t) : KeepsTheTick s t := by
  cases i with
  | lda m | ldx m | ldy m | cmp m | cpx m | cpy m | and m | ora m | eor m | bit m =>
    obtain ⟨-, rfl⟩ := whenForm_next.mp h; exact readOperand_keepsTheTick m s
  | adc m =>
    obtain ⟨-, rfl⟩ := whenForm_next.mp h
    exact (readOperand_keepsTheTick m s).trans (addWithCarry_keepsTheTick _ _)
  | sbc m =>
    obtain ⟨-, rfl⟩ := whenForm_next.mp h
    exact (readOperand_keepsTheTick m s).trans (subWithBorrow_keepsTheTick _ _)
  | sta m | stx m | sty m => obtain ⟨-, rfl⟩ := whenForm_next.mp h; exact writeOperand_keepsTheTick m _ s
  | inc m | dec m | asl m | lsr m | rol m | ror m =>
    obtain ⟨-, rfl⟩ := whenForm_next.mp h; exact modifyOperand_keepsTheTick _ m s
  | pha | php => cases h; exact push8_keepsTheTick _ s
  | pla | plp => cases h; exact pull8_keepsTheTick s
  | jmpInd w => cases h; exact memReadWord_keepsTheTick w s
  | jsr w => cases h; exact push16_keepsTheTick _ s
  | rts => cases h; exact pull16_keepsTheTick s
  | rti => cases h; exact returnFromInterrupt_keepsTheTick s
  | bcc r | bcs r | beq r | bne r | bmi r | bpl r | bvc r | bvs r => cases h; exact branch_keepsTheTick _ r s
  | unrec op =>
    by_cases hop : op ∈ s.cfg.recognized
    · rw [execUnrec_of_mem hop] at h; cases h
    · rw [execUnrec_of_notMem hop] at h; cases h; exact KeepsTheTick.refl s
  | _ => cases h; exact KeepsTheTick.refl s

theorem fetchInstr_keepsTheTick (s : State) : KeepsTheTick s (fetchInstr s).state := by
  obtain ⟨_, _, _, -, h⟩ := fetchInstr_only s
  exact h.keepsTheTick

/-- A step of the instruction that answers next (R286): the meaning of what is fetched, then EXTRA_COST. -/
theorem stepInstr_next {s t : State} :
    stepInstr s = .next t ↔ ∃ u, exec (fetchInstr s).instr (fetchInstr s).state = .next u ∧
      t = u.addCyc (u.extraCostOf (fetchInstr s).instr) := by
  simp only [stepInstr]
  cases exec (fetchInstr s).instr (fetchInstr s).state <;> simp [eq_comm]

theorem stepInstr_keepsTheTick {s t : State} (h : stepInstr s = .next t) : KeepsTheTick s t := by
  obtain ⟨u, hu, rfl⟩ := stepInstr_next.mp h
  have hexec : KeepsTheTick _ u := exec_keepsTheTick hu
  exact (fetchInstr_keepsTheTick s).trans hexec

/-! The begin of a Tick (R285). -/

theorem beginTick_of_none {s : State} (h : s.pending = none) : beginTick s = { s with cyc := 0 } := by
  simp [beginTick, servicePending, clearCyc, h]

theorem beginTick_of_some {s : State} {k : IntKind} (h : s.pending = some k) :
    beginTick s = service k { s with cyc := 0 } := by
  simp [beginTick, servicePending, clearCyc, h]

theorem service_keepsTheTick (k : IntKind) (s : State) : KeepsTheTick s (service k s) := by
  obtain ⟨_, _, h⟩ := pushFrame_only k s
  rw [service_eq, h]; exact KeepsTheTick.refl s

theorem beginTick_keepsTheTick (s : State) : KeepsTheTick s (beginTick s) := by
  cases h : s.pending with
  | none => rw [beginTick_of_none h]; exact KeepsTheTick.refl s
  | some k => rw [beginTick_of_some h]; exact service_keepsTheTick k { s with cyc := 0 }

/-! The end of a Tick and the host's calls (R285, R294). -/

theorem endTick_host (s : State) : (endTick s).env.host = s.env.host := by
  obtain ⟨_, _, h⟩ := endTick_only s
  rw [h]

/-- A call reads the slot and the flag I, so the script does not matter to it. -/
theorem signalInterrupt_env (k : IntKind) (s : State) (e : Environment) :
    signalInterrupt k { s with env := e } = { signalInterrupt k s with env := e } := by
  cases k with
  | irq => simp only [signalInterrupt]; split_ifs <;> rfl
  | _ => rfl

theorem signalAll_env (ks : List IntKind) (s : State) (e : Environment) :
    signalAll ks { s with env := e } = { signalAll ks s with env := e } := by
  induction ks generalizing s with
  | nil => rfl
  | cons k ks ih => rw [signalAll, signalInterrupt_env, ih]; rfl

theorem hostEvents_of_nil {s : State} (h : s.env.host = []) : hostEvents s = s := by
  simp [hostEvents, h]

theorem hostEvents_of_cons {s : State} {calls : List IntKind} {rest : List (List IntKind)}
    (h : s.env.host = calls :: rest) :
    hostEvents s = { signalAll calls s with env := { s.env with host := rest } } := by
  simp only [hostEvents, h, signalAll_env]

/-- Settles O5: the host's part of the script is the one of the state before the Tick, which no part of it reads. -/
theorem tickServicesFirstAndTheHostCallsLast : Obligations.TickServicesFirstAndTheHostCallsLast := by
  refine fun s => ⟨beginTick_of_none, fun k => beginTick_of_some, fun t ht => ?_⟩
  have hhost : (endTick t).env.host = s.env.host :=
    (endTick_host t).trans ((beginTick_keepsTheTick s).trans (stepInstr_keepsTheTick ht)).host
  have hstep : step s = .next (hostEvents (endTick t)) := step_next.mpr ⟨t, ht, rfl⟩
  refine ⟨fun h => ?_, fun calls rest h => ?_⟩
  · rw [hstep, hostEvents_of_nil (hhost.trans h)]
  · rw [hstep, hostEvents_of_cons (hhost.trans h)]

/-! Which Ticks complete. -/

/-- The opcode of the instruction fetched is the byte at PC. -/
theorem fetchInstr_instr (s : State) :
    ∃ b1 b2, (fetchInstr s).instr = decodeBytes s.cfg.recognized (fetch8 s).value b1 b2 := by
  unfold fetchInstr
  simp only
  split <;> exact ⟨_, _, rfl⟩

/-- A byte that RECOGNIZED holds although R96 gives it no instruction comes out of the decoder as UNREC (log entry 4). -/
theorem decodeBytes_noInstruction {recognized : List Byte} {op : Byte} (hr : op ∈ recognized)
    (hn : op ∈ unrecognizedBytes) (b1 b2 : Byte) : decodeBytes recognized op b1 b2 = .unrec op := by
  rw [decodeBytes, selectedCell_of_mem hr, (mem_unrecognizedBytes op).mp hn]; rfl

/-- The byte of a decoded UNREC is not recognized. -/
theorem notMem_of_decodeBytes_eq_unrec {recognized : List Byte} {op o b1 b2 : Byte}
    (h : ¬(op ∈ recognized ∧ op ∈ unrecognizedBytes)) (ho : decodeBytes recognized op b1 b2 = .unrec o) :
    o ∉ recognized := by
  obtain ⟨hop, hs, -⟩ := decodeBytes_spec h b1 b2
  rw [ho] at hop hs
  have hsel := (Instr.selectedBy_of_opcode recognized rfl).mp hs
  simpa [Instr.isUnrec] using hsel

theorem step_refused {s : State} {r : Refusal} (h : stepInstr (beginTick s) = .refused r) : step s = .refused r := by
  rw [step, h]

theorem stepInstr_refused {s : State} {r : Refusal}
    (h : exec (fetchInstr s).instr (fetchInstr s).state = .refused r) : stepInstr s = .refused r := by
  simp only [stepInstr, h]

/-- Settles O8: the decoder gives well-formed instructions alone, and UNREC only of a byte that is not recognized, but for
the bytes of log entry 4. -/
theorem everyTickCompletes : Obligations.EveryTickCompletes := by
  intro s op
  have hbegin : (beginTick s).cfg = s.cfg := (beginTick_keepsTheTick s).cfg
  have hfetch : (fetchInstr (beginTick s)).state.cfg = s.cfg := (fetchInstr_keepsTheTick _).cfg.trans hbegin
  obtain ⟨b1, b2, hinstr⟩ := fetchInstr_instr (beginTick s)
  rw [hbegin] at hinstr
  split_ifs with hn
  · have hunrec := hinstr.trans (decodeBytes_noInstruction hn.1 hn.2 b1 b2)
    exact step_refused (stepInstr_refused (by rw [hunrec]; exact execUnrec_of_mem (hfetch ▸ hn.1)))
  · have hwf : (fetchInstr (beginTick s)).instr.wellFormed = true := hinstr ▸ decodeBytes_wellFormed hn b1 b2
    obtain ⟨u, hu⟩ := exec_completes (s := (fetchInstr (beginTick s)).state) hwf fun o ho => by
      rw [hfetch]; exact notMem_of_decodeBytes_eq_unrec hn (hinstr.symm.trans ho)
    exact ⟨_, step_next.mpr ⟨_, stepInstr_next.mpr ⟨u, hu, rfl⟩, rfl⟩⟩

/-- Settles O17, field by field: memory, peripherals and counters are empty or zero. -/
theorem resetStateIsAsConstructed : Obligations.ResetStateIsAsConstructed := by
  have hnone : ∀ p ∈ State.reset.peripherals, False := fun _ hp => List.not_mem_nil hp
  exact ⟨rfl, rfl, State.reset_mem_canonical, fun _ => rfl, rfl, rfl, fun p hp => (hnone p hp).elim, rfl, rfl, rfl,
    fun p hp => (hnone p hp).elim⟩

end Sys2Proof.Machine

/-! SUPPORT for the statement that no cycle count is read (R12, R326): a simulation up to `State.untimed`, with one lemma
for each operation that the steps of a Tick are made of. -/

namespace Sys2Proof.Machine

/-- The states differ at most in what `State.untimed` puts aside. -/
def Alike (s t : State) : Prop := s.untimed = t.untimed

/-- An outcome with what `State.untimed` puts aside put aside. -/
def untimedOutcome : Host.Outcome State Fault Refusal → Host.Outcome State Fault Refusal
  | .next s => .next s.untimed
  | .fault r => .fault r
  | .refused r => .refused r

/-- The outcomes are alike next states, or the same stop. -/
def AlikeOutcomes (o o' : Host.Outcome State Fault Refusal) : Prop := untimedOutcome o = untimedOutcome o'

/-- The operation gives alike results from a state and from its untimed part. -/
def IgnoresTime (f : State → State) : Prop := ∀ s, Alike (f s) (f s.untimed)

/-! What alike states share. -/

section
variable {s t : State}

theorem Alike.untimed_eq (h : Alike s t) : s.untimed = t.untimed := h
theorem Alike.symm (h : Alike s t) : Alike t s := Eq.symm h
theorem Alike.trans {u : State} (h : Alike s t) (h' : Alike t u) : Alike s u := Eq.trans h h'
theorem Alike.a_eq (h : Alike s t) : s.a = t.a := congrArg (·.a) h.untimed_eq
theorem Alike.x_eq (h : Alike s t) : s.x = t.x := congrArg (·.x) h.untimed_eq
theorem Alike.y_eq (h : Alike s t) : s.y = t.y := congrArg (·.y) h.untimed_eq
theorem Alike.pc_eq (h : Alike s t) : s.pc = t.pc := congrArg (·.pc) h.untimed_eq
theorem Alike.flags_eq (h : Alike s t) : s.flags = t.flags := congrArg (·.flags) h.untimed_eq
theorem Alike.pending_eq (h : Alike s t) : s.pending = t.pending := congrArg (·.pending) h.untimed_eq
theorem Alike.recognized_eq (h : Alike s t) : s.cfg.recognized = t.cfg.recognized :=
  congrArg (fun u => u.cfg.recognized) h.untimed_eq
theorem Alike.wordReadPageWrap_eq (h : Alike s t) : s.cfg.wordReadPageWrap = t.cfg.wordReadPageWrap :=
  congrArg (fun u => u.cfg.wordReadPageWrap) h.untimed_eq

theorem refOf_untimed (m : Operand) (s : State) : refOf m s.untimed = refOf m s := by cases m <;> rfl

/-- The reference of an operand is computed from registers and memory (R117 to R126). -/
theorem Alike.refOf_eq (h : Alike s t) (m : Operand) : refOf m s = refOf m t := by
  rw [← refOf_untimed m s, h.untimed_eq, refOf_untimed m t]

theorem Alike.congr {f : State → State} (h : Alike s t) (hf : IgnoresTime f) : Alike (f s) (f t) :=
  (hf s).trans (h.untimed_eq ▸ (hf t).symm)

end

/-! Operations on the state alone. -/

theorem signalInterrupt_untimed (k : IntKind) (s : State) :
    signalInterrupt k s.untimed = (signalInterrupt k s).untimed := by
  have hflags : s.untimed.flags = s.flags := rfl
  have hpending : s.untimed.pending = s.pending := rfl
  cases k with
  | irq => simp only [signalInterrupt, hflags, hpending]; split_ifs <;> rfl
  | _ => rfl

theorem signalAll_untimed (ks : List IntKind) (s : State) : signalAll ks s.untimed = (signalAll ks s).untimed := by
  induction ks generalizing s with
  | nil => rfl
  | cons k ks ih => rw [signalAll, signalInterrupt_untimed, ih]; rfl

theorem signalAll_ignoresTime (ks : List IntKind) : IgnoresTime (signalAll ks) := by
  intro s; rw [signalAll_untimed]; rfl

theorem signalRequests_ignoresTime (rs : List PeripheralRequest) : IgnoresTime (signalRequests rs) :=
  signalAll_ignoresTime _

/-- A handler's answer comes from the script, or is the free value of the counter of draws (R64). -/
theorem deviceRead_untimed (o : Byte) (s : State) :
    (deviceRead o s).value = (deviceRead o s.untimed).value ∧
      Alike (deviceRead o s).state (deviceRead o s.untimed).state := by
  have henv : s.untimed.env = s.env := rfl
  simp only [deviceRead, henv]
  split
  · refine ⟨rfl, Alike.congr ?_ (signalRequests_ignoresTime _)⟩; rfl
  · exact ⟨rfl, rfl⟩

theorem deviceWrite_ignoresTime (o v : Byte) : IgnoresTime (deviceWrite o v) := by
  intro s
  have henv : s.untimed.env = s.env := rfl
  simp only [deviceWrite, henv]
  split
  · refine Alike.congr ?_ (signalRequests_ignoresTime _); rfl
  · rfl

theorem memRead_untimed (a : Addr) (s : State) :
    (memRead a s).value = (memRead a s.untimed).value ∧ Alike (memRead a s).state (memRead a s.untimed).state := by
  have hbound : s.untimed.isBound a = s.isBound a := rfl
  simp only [memRead, hbound]
  split_ifs
  · exact deviceRead_untimed _ s
  · exact ⟨rfl, rfl⟩

theorem memWrite_ignoresTime (a : Addr) (v : Byte) : IgnoresTime (memWrite a v) := by
  intro s
  have hbound : s.untimed.isBound a = s.isBound a := rfl
  simp only [memWrite, hbound]
  split_ifs
  · exact deviceWrite_ignoresTime _ v s
  · rfl

theorem takeDecimal_ignoresTime (v : Byte) (o : Outcome8) : IgnoresTime fun s => s.takeDecimal v o := by
  intro s
  have ha : s.untimed.a = s.a := rfl
  simp only [State.takeDecimal, ha]
  split_ifs <;> rfl

theorem addWithCarry_ignoresTime (v : Byte) : IgnoresTime (addWithCarry v) := by
  intro s
  have hflags : s.untimed.flags = s.flags := rfl
  simp only [addWithCarry, hflags]
  split_ifs
  · exact takeDecimal_ignoresTime v _ s
  · rfl

theorem subWithBorrow_ignoresTime (v : Byte) : IgnoresTime (subWithBorrow v) := by
  intro s
  have hflags : s.untimed.flags = s.flags := rfl
  simp only [subWithBorrow, hflags]
  split_ifs
  · exact takeDecimal_ignoresTime v _ s
  · rfl

theorem branch_ignoresTime (taken : Bool) (rel : Byte) : IgnoresTime (branch taken rel) := by
  intro s
  cases taken <;> rfl

theorem service_ignoresTime (k : IntKind) : IgnoresTime (service k) := by
  intro s
  simp only [service_eq, pushFrame_eq]
  split_ifs <;> rfl

theorem tickPhase_ignoresTime : IgnoresTime tickPhase := by
  intro s
  have henv : s.untimed.env = s.env := rfl
  simp only [tickPhase, henv]
  split
  · rfl
  · refine Alike.congr ?_ (signalRequests_ignoresTime _); rfl

theorem pace_ignoresTime : IgnoresTime pace := fun _ => rfl

theorem hostEvents_ignoresTime : IgnoresTime hostEvents := by
  intro s
  have henv : s.untimed.env = s.env := rfl
  simp only [hostEvents, henv]
  split
  · rfl
  · refine Alike.congr ?_ (signalAll_ignoresTime _); rfl

/-! Accesses, operands and the fetch: from alike states the same value and alike states. -/

section
variable {s t : State}

theorem memRead_alike (h : Alike s t) (a : Addr) :
    (memRead a s).value = (memRead a t).value ∧ Alike (memRead a s).state (memRead a t).state := by
  obtain ⟨hv, hs⟩ := memRead_untimed a s
  obtain ⟨hv', hs'⟩ := memRead_untimed a t
  rw [← h.untimed_eq] at hv' hs'
  exact ⟨hv.trans hv'.symm, hs.trans hs'.symm⟩

theorem memReadWord_alike (h : Alike s t) (a : Addr) :
    (memReadWord a s).value = (memReadWord a t).value ∧ Alike (memReadWord a s).state (memReadWord a t).state := by
  obtain ⟨hlo, hs⟩ := memRead_alike h a
  obtain ⟨hhi, hs'⟩ := memRead_alike hs (secondAddr t.cfg.wordReadPageWrap a)
  simp only [memReadWord, h.wordReadPageWrap_eq, hlo, hhi]
  exact ⟨trivial, hs'⟩

theorem readRef_alike (h : Alike s t) (r : Ref) :
    (readRef r s).value = (readRef r t).value ∧ Alike (readRef r s).state (readRef r t).state := by
  cases r with
  | acc => exact ⟨h.a_eq, h⟩
  | imm v => exact ⟨rfl, h⟩
  | mem a => exact memRead_alike (s := s.addCyc 1) (t := t.addCyc 1) h a

theorem writeRef_alike (h : Alike s t) (r : Ref) (v : Byte) : Alike (writeRef r v s) (writeRef r v t) := by
  cases r with
  | acc => exact h.congr (f := fun u => u.setA v) fun _ => rfl
  | imm _ => exact h
  | mem a => exact Alike.congr (s := s.addCyc 1) (t := t.addCyc 1) h (memWrite_ignoresTime a v)

theorem readOperand_alike (h : Alike s t) (m : Operand) :
    (readOperand m s).value = (readOperand m t).value ∧ Alike (readOperand m s).state (readOperand m t).state := by
  simp only [readOperand, resolve_eq, h.refOf_eq m]
  exact readRef_alike (s := s.addCyc _) (t := t.addCyc _) h _

theorem writeOperand_alike (h : Alike s t) (m : Operand) (v : Byte) : Alike (writeOperand m v s) (writeOperand m v t) := by
  simp only [writeOperand, resolve_eq, h.refOf_eq m]
  exact writeRef_alike (s := s.addCyc _) (t := t.addCyc _) h _ v

theorem modifyOperand_alike (h : Alike s t) (op : Byte → Flags → Outcome8) (m : Operand) :
    Alike (modifyOperand op m s) (modifyOperand op m t) := by
  obtain ⟨hv, hs⟩ := readOperand_alike h m
  simp only [readOperand, resolve_eq, h.refOf_eq m] at hv hs
  simp only [modifyOperand, resolve_eq, h.refOf_eq m, hv, hs.flags_eq]
  exact writeRef_alike (hs.congr (f := fun u => u.setFlags _) fun _ => rfl) _ _

theorem fetch8_alike (h : Alike s t) :
    (fetch8 s).value = (fetch8 t).value ∧ Alike (fetch8 s).state (fetch8 t).state := by
  obtain ⟨hv, hs⟩ := memRead_alike h t.pc
  simp only [fetch8, h.pc_eq]
  exact ⟨hv, hs.congr (f := fun u => (u.setPc (u.pc + 1)).addCyc 1) fun _ => rfl⟩

theorem fetchInstr_alike (h : Alike s t) :
    (fetchInstr s).instr = (fetchInstr t).instr ∧ Alike (fetchInstr s).state (fetchInstr t).state := by
  obtain ⟨hv0, h0⟩ := fetch8_alike h
  obtain ⟨hv1, h1⟩ := fetch8_alike h0
  obtain ⟨hv2, h2⟩ := fetch8_alike h1
  simp only [fetchInstr, h.recognized_eq, hv0, hv1, hv2]
  split
  · exact ⟨rfl, h0⟩
  · exact ⟨rfl, h1⟩
  · exact ⟨rfl, h2⟩

/-! Outcomes. -/

theorem Alike.next (h : Alike s t) : AlikeOutcomes (.next s) (.next t) := congrArg Host.Outcome.next h.untimed_eq

theorem AlikeOutcomes.next_of_next {o : Host.Outcome State Fault Refusal} (h : AlikeOutcomes (.next s) o) :
    ∃ t, o = .next t ∧ Alike s t := by
  cases o with
  | next t => exact ⟨t, rfl, Host.Outcome.next.inj h⟩
  | fault r => cases h
  | refused r => cases h

theorem whenForm_alike (h : Alike s t) (ok : Bool) : AlikeOutcomes (whenForm ok s) (whenForm ok t) := by
  cases ok with
  | false => rfl
  | true => exact h.next

/-! Meanings. -/

/-- A meaning that from every state answers as from its untimed part. -/
theorem Alike.exec_of (h : Alike s t) {i : Instr} (hi : ∀ u, AlikeOutcomes (exec i u) (exec i u.untimed)) :
    AlikeOutcomes (exec i s) (exec i t) :=
  Eq.trans (hi s) (h.untimed_eq ▸ Eq.symm (hi t))

/-- A meaning that reads its operand and then acts on the value. -/
theorem Alike.readThen (h : Alike s t) (ok : Bool) (m : Operand) (f : Byte → State → State)
    (hf : ∀ v, IgnoresTime (f v)) :
    AlikeOutcomes (whenForm ok (f (readOperand m s).value (readOperand m s).state))
      (whenForm ok (f (readOperand m t).value (readOperand m t).state)) := by
  obtain ⟨hv, hs⟩ := readOperand_alike h m
  rw [hv]
  exact whenForm_alike (hs.congr (hf _)) ok

/-- A meaning that stores a register. -/
theorem Alike.store (h : Alike s t) (ok : Bool) (m : Operand) {v w : Byte} (hv : v = w) :
    AlikeOutcomes (whenForm ok (writeOperand m v s)) (whenForm ok (writeOperand m w t)) :=
  hv ▸ whenForm_alike (writeOperand_alike h m v) ok

/-- A meaning reads registers, flags, memory, the script and RECOGNIZED, BOUND, BRK_SKIP, WORD_READ_PAGE_WRAP, and no
counter (R12). -/
theorem exec_alike (h : Alike s t) (i : Instr) : AlikeOutcomes (exec i s) (exec i t) := by
  cases i with
  | lda m => exact h.readThen _ m (fun v u => u.loadA v) fun _ _ => rfl
  | ldx m => exact h.readThen _ m (fun v u => u.loadX v) fun _ _ => rfl
  | ldy m => exact h.readThen _ m (fun v u => u.loadY v) fun _ _ => rfl
  | and m => exact h.readThen _ m (fun v u => u.loadA (u.a &&& v)) fun _ _ => rfl
  | ora m => exact h.readThen _ m (fun v u => u.loadA (u.a ||| v)) fun _ _ => rfl
  | eor m => exact h.readThen _ m (fun v u => u.loadA (u.a ^^^ v)) fun _ _ => rfl
  | bit m => exact h.readThen _ m (fun v u => u.setFlags (bitTest u.a v u.flags)) fun _ _ => rfl
  | cmp m => exact h.readThen _ m (fun v u => u.setFlags (compareFlags u.a v u.flags)) fun _ _ => rfl
  | cpx m => exact h.readThen _ m (fun v u => u.setFlags (compareFlags u.x v u.flags)) fun _ _ => rfl
  | cpy m => exact h.readThen _ m (fun v u => u.setFlags (compareFlags u.y v u.flags)) fun _ _ => rfl
  | adc m => exact h.readThen _ m addWithCarry addWithCarry_ignoresTime
  | sbc m => exact h.readThen _ m subWithBorrow subWithBorrow_ignoresTime
  | sta m => exact h.store _ m h.a_eq
  | stx m => exact h.store _ m h.x_eq
  | sty m => exact h.store _ m h.y_eq
  | inc m | dec m | asl m | lsr m | rol m | ror m => exact whenForm_alike (modifyOperand_alike h _ m) _
  | pha | php => exact h.exec_of fun u => by simp only [exec, execPha, execPhp, push8_eq]; rfl
  | pla | plp => exact h.exec_of fun u => by simp only [exec, execPla, execPlp, pull8_eq]; rfl
  | jsr w => exact h.exec_of fun u => by simp only [exec, execJsr, push16_eq]; rfl
  | rts => exact h.exec_of fun u => by simp only [exec, execRts, pull16_eq]; rfl
  | rti => exact h.exec_of fun u => by simp only [exec, execRti, returnFromInterrupt_eq]; rfl
  | jmpInd w =>
    obtain ⟨hv, hs⟩ := memReadWord_alike h w
    simp only [exec, execJmpInd, hv]
    exact (hs.congr (f := fun u => (u.addCyc 2).setPc _) fun _ => rfl).next
  | bcc r | bcs r | beq r | bne r | bmi r | bpl r | bvc r | bvs r =>
    exact h.exec_of fun u => (branch_ignoresTime _ r u).next
  | unrec op =>
    by_cases hop : op ∈ s.cfg.recognized
    · rw [execUnrec_of_mem hop, execUnrec_of_mem (h.recognized_eq ▸ hop)]; rfl
    · rw [execUnrec_of_notMem hop, execUnrec_of_notMem (h.recognized_eq ▸ hop)]
      exact (h.congr (f := fun u => emitDiag op (u.pc - 1) u) fun _ => rfl).next
  | _ => exact h.exec_of fun _ => rfl

/-! The Tick. -/

theorem beginTick_alike (h : Alike s t) : Alike (beginTick s) (beginTick t) := by
  cases hs : s.pending with
  | none => rw [beginTick_of_none hs, beginTick_of_none (h.pending_eq ▸ hs)]; exact h
  | some k =>
    rw [beginTick_of_some hs, beginTick_of_some (h.pending_eq ▸ hs)]
    exact Alike.congr (s := { s with cyc := 0 }) (t := { t with cyc := 0 }) h (service_ignoresTime k)

theorem stepInstr_alike (h : Alike s t) {u : State} (hu : stepInstr s = .next u) :
    ∃ v, stepInstr t = .next v ∧ Alike u v := by
  obtain ⟨hinstr, hstate⟩ := fetchInstr_alike h
  obtain ⟨w, hw, rfl⟩ := stepInstr_next.mp hu
  obtain ⟨v, hv, hsame⟩ := (hw ▸ exec_alike hstate (fetchInstr s).instr).next_of_next
  exact ⟨_, stepInstr_next.mpr ⟨v, hinstr ▸ hv, rfl⟩, hsame⟩

theorem endTick_alike (h : Alike s t) : Alike (endTick s) (endTick t) :=
  (h.congr tickPhase_ignoresTime).congr pace_ignoresTime

end

/-- Settles O15, by a simulation: each part of a Tick takes alike states to alike states. -/
theorem scriptedRunsIgnoreCycleCounts : Obligations.ScriptedRunsIgnoreCycleCounts := by
  intro s t s' h hs'
  obtain ⟨u, hu, rfl⟩ := step_next.mp hs'
  obtain ⟨v, hv, hsame⟩ := stepInstr_alike (beginTick_alike h) hu
  exact ⟨_, step_next.mpr ⟨v, hv, rfl⟩, (endTick_alike hsame).congr hostEvents_ignoresTime⟩

end Sys2Proof.Machine

/-! SUPPORT for the statements about the stack instructions and the flags byte. -/

namespace Sys2Proof.Machine

theorem Flags.pack_toNat (f : Flags) : f.pack.toNat =
    f.s.toNat * 128 + f.v.toNat * 64 + f.r.toNat * 32 + f.b.toNat * 16 + f.d.toNat * 8 + f.i.toNat * 4 + f.z.toNat * 2
      + f.c.toNat := by
  have := f.s.toNat_le; have := f.v.toNat_le; have := f.r.toNat_le; have := f.b.toNat_le
  have := f.d.toNat_le; have := f.i.toNat_le; have := f.z.toNat_le; have := f.c.toNat_le
  rw [Flags.pack, BitVec.toNat_ofNat, Nat.mod_eq_of_lt (by omega)]

/-- The law of R32: bits 4 and 5 of the byte do not survive, the other six do. -/
theorem Flags.pack_unpack (b : Byte) : (Flags.unpack b).pack = b ||| 0x30 := by revert b; decide

/-- Settles O35: every packed sum is below 256. -/
theorem packAndUnpackTheFlags : Obligations.PackAndUnpackTheFlags :=
  ⟨Flags.pack_toNat, fun _ => rfl, Flags.pack_unpack⟩

/-- A push and the cycle of the instruction around it (R70, R160, R161). -/
theorem push8_addCyc_eq (v : Byte) (s : State) :
    (push8 v s).addCyc 1 =
      { s with mem := s.mem.write (stackAddr s.sp).toNat v, sp := s.sp - 1, cyc := s.cyc + 1 } := by
  rw [push8_eq]; rfl

/-- Settles O33: page 1 is never bound, so a push is a store. -/
theorem pushesStoreAtTheStackPointer : Obligations.PushesStoreAtTheStackPointer := by
  intro s slot into
  have hpeek (v : Byte) (b : Addr) : (into v).peek b = if b = slot then v else s.peek b := s.poke_peek slot b v
  refine ⟨congrArg _ (push8_addCyc_eq s.a s), congrArg _ (push8_addCyc_eq s.flags.pack s), fun v => ⟨?_, fun b hb => ?_⟩⟩
  · rw [hpeek, if_pos rfl]
  · rw [hpeek, if_neg hb]

/-- Settles O34: a pull reads MEM above SP, and the flags of PLA are `SetZS`'s. -/
theorem pullsReadAboveTheStackPointer : Obligations.PullsReadAboveTheStackPointer := by
  refine fun s => ⟨?_, ?_⟩
  · simp only [exec, execPla, pull8_eq, State.loadA, setZS_eq]; rfl
  · simp only [exec, execPlp, pull8_eq]; rfl

/-- Settles O48: SP counts up once for each byte pulled. -/
theorem returnsPullThePc : Obligations.ReturnsPullThePc := by
  intro s
  have h2 : s.sp + 1 + 1 = s.sp + 2 := BitVec.add_assoc _ _ _
  have h3 : s.sp + 2 + 1 = s.sp + 3 := BitVec.add_assoc _ _ _
  refine ⟨?_, ?_⟩
  · simp only [exec, execRts, pull16_eq, h2]; rfl
  · simp only [exec, execRti, returnFromInterrupt_eq, h2, h3]

end Sys2Proof.Machine

/-! SUPPORT for the statements about construction and the fetch. -/

namespace Sys2Proof.Machine

/-! Construction (R45, R65, R81). -/

/-- The image is what its addresses read as; every other address reads as before. -/
theorem Memory.read_load (m : Memory) (start a : Nat) (image : List Byte) :
    (Memory.load m start image).read a =
      if start ≤ a ∧ a < start + image.length then image.getD (a - start) 0 else m.read a := by
  induction image generalizing m start with
  | nil => simp only [Memory.load, List.length_nil]; rw [if_neg (by omega)]
  | cons v rest ih =>
    simp only [Memory.load, ih, Memory.read_write, List.length_cons]
    rcases Nat.lt_trichotomy a start with hlt | rfl | hgt
    · rw [if_neg (by omega), if_neg (by omega), if_neg (by omega)]
    · rw [if_neg (by omega), if_pos rfl, if_pos (by omega), Nat.sub_self, List.getD_cons_zero]
    · have hsub : a - start = (a - (start + 1)) + 1 := by omega
      rw [hsub, List.getD_cons_succ, if_neg (by omega : a ≠ start)]
      exact if_congr (by omega) rfl rfl

theorem mem_bindOffset (offset o : Byte) (cfg : Config) :
    o ∈ (bindOffset offset cfg).bound ↔ o = offset ∨ o ∈ cfg.bound := by
  unfold bindOffset
  split_ifs with h
  · have hmem : offset ∈ cfg.bound := by simpa using h
    exact ⟨.inr, fun ho => ho.elim (fun e => e ▸ hmem) id⟩
  · simp [or_comm]

theorem bindOffset_only (offset : Byte) (cfg : Config) : { bindOffset offset cfg with bound := cfg.bound } = cfg := by
  unfold bindOffset; split_ifs <;> rfl

/-- Settles O16: the memory is the loaded image over an empty one, every other field an argument or a zero. -/
theorem constructionCopiesTheImage : Obligations.ConstructionCopiesTheImage := by
  refine ⟨fun init cfg ps env image off => ⟨fun hfit => ⟨_, if_pos hfit, Memory.wf_load hfit rfl,
    fun a => Memory.read_load [] off a image, rfl, rfl, rfl, ?_, rfl, rfl, rfl, rfl, rfl, rfl, rfl, rfl, rfl, ?_⟩,
    fun hbig => if_neg (by omega)⟩, fun offset cfg => ⟨fun o => mem_bindOffset offset o cfg, bindOffset_only offset cfg⟩⟩
  · intro p hp
    obtain ⟨q, -, rfl⟩ := List.mem_map.mp hp
    rfl
  · rw [List.map_map]
    exact List.map_id ps

/-! The fetch (R22, R93, R111). -/

/-- One byte of the fetch is one bus read at PC. -/
theorem fetch8_state_eq (s : State) :
    (fetch8 s).state = { (memRead s.pc s).state with pc := s.pc + 1, cyc := s.cyc + 1 } := by
  obtain ⟨p, r, w, d, n, h⟩ := memRead_only s.pc s
  simp only [fetch8, h]; rfl

/-- The bytes an instruction was decoded from are its encoding, also where UNREC of a recognized byte is no instruction. -/
theorem encode_decodeBytes (recognized : List Byte) (op b1 b2 : Byte) :
    (decodeBytes recognized op b1 b2).encode = some (op :: [b1, b2].take (operandBytes recognized op)) := by
  by_cases hn : op ∈ recognized ∧ op ∈ unrecognizedBytes
  · have hcell : selectedCell recognized op = .none :=
      (selectedCell_of_mem hn.1).trans ((mem_unrecognizedBytes op).mp hn.2)
    rw [decodeBytes, operandBytes, hcell]; rfl
  · obtain ⟨hop, -, hpart⟩ := decodeBytes_spec hn b1 b2
    rw [Instr.encode_of_opcode hop, hpart]

/-- The fetch by the length its opcode asks for (R90, R93). -/
theorem fetchInstr_of_zero {s : State} (h : operandBytes s.cfg.recognized (fetch8 s).value = 0) :
    fetchInstr s = { instr := decodeBytes s.cfg.recognized (fetch8 s).value 0 0, state := (fetch8 s).state } := by
  simp only [fetchInstr, h]

theorem fetchInstr_of_one {s : State} (h : operandBytes s.cfg.recognized (fetch8 s).value = 1) :
    fetchInstr s =
      { instr := decodeBytes s.cfg.recognized (fetch8 s).value (fetch8 (fetch8 s).state).value 0
        state := (fetch8 (fetch8 s).state).state } := by
  simp only [fetchInstr, h]

theorem fetchInstr_of_two {s : State} (h : operandBytes s.cfg.recognized (fetch8 s).value = 2) :
    fetchInstr s =
      { instr := decodeBytes s.cfg.recognized (fetch8 s).value (fetch8 (fetch8 s).state).value
          (fetch8 (fetch8 (fetch8 s).state).state).value
        state := (fetch8 (fetch8 (fetch8 s).state).state).state } := by
  simp only [fetchInstr, h]

/-- A byte of the stream that is in MEM, `n` bytes past the first. -/
theorem fetch8_fetched_unbound {s : State} {n : Nat} {b : Byte} (hbound : s.isBound (s.pc + BitVec.ofNat 16 n) = false)
    (hb : s.peek (s.pc + BitVec.ofNat 16 n) = b) :
    fetch8 (s.fetched n) = { value := b, state := s.fetched (n + 1) } := by
  have h : (s.fetched n).isBound (s.fetched n).pc = false := hbound
  rw [fetch8_unbound h, State.fetched_succ, ← hb]; rfl

/-- Where the bytes of an instruction stand in MEM, the fetch gives the instruction and leaves PC past them. -/
theorem fetchInstr_of_codeAt {s : State} {i : Instr} {bytes : List Byte} (h : s.codeAt i bytes) :
    fetchInstr s = { instr := i, state := s.pastBytes bytes } := by
  obtain ⟨hdec, hcode⟩ := h
  obtain ⟨op, code, rfl, -, hlen, rfl⟩ := decodeWith_eq_ok_iff.mp hdec
  rw [List.append_nil] at hcode ⊢
  have hbyte {k : Nat} {b : Byte} (hk : (op :: code)[k]? = some b) :
      fetch8 (s.fetched k) = { value := b, state := s.fetched (k + 1) } := by
    obtain ⟨hlt, -⟩ := List.getElem?_eq_some_iff.mp hk
    obtain ⟨hbound, hpeek⟩ := hcode k hlt
    exact fetch8_fetched_unbound hbound (Option.some.inj (hpeek.symm.trans hk))
  have h0 : fetch8 s = { value := op, state := s.fetched 1 } := by
    have := hbyte (k := 0) rfl
    rwa [State.fetched_zero] at this
  match code, hlen with
  | [], hlen => rw [fetchInstr_of_zero (by rw [h0]; exact hlen.symm), h0]; rfl
  | [b1], hlen =>
    have h1 := hbyte (k := 1) (b := b1) rfl
    rw [fetchInstr_of_one (by rw [h0]; exact hlen.symm), h0, h1]; rfl
  | [b1, b2], hlen =>
    have h1 := hbyte (k := 1) (b := b1) rfl
    have h2 := hbyte (k := 2) (b := b2) rfl
    rw [fetchInstr_of_two (by rw [h0]; exact hlen.symm), h0, h1, h2]; rfl
  | _ :: _ :: _ :: _, hlen =>
    have := operandBytes_le s.cfg.recognized op
    simp only [List.length_cons] at hlen; omega

/-- Settles O7, by the number of operand bytes that the opcode asks for. -/
theorem fetchTakesTheBytesAtPc : Obligations.FetchTakesTheBytesAtPc := by
  refine ⟨fun s => ⟨rfl, fetch8_state_eq s, ?_⟩, fun s i bytes => fetchInstr_of_codeAt⟩
  have hle := operandBytes_le s.cfg.recognized (fetch8 s).value
  split
  next h => rw [fetchInstr_of_zero h, encode_decodeBytes, h]; exact ⟨rfl, rfl⟩
  next h => rw [fetchInstr_of_one h, encode_decodeBytes, h]; exact ⟨rfl, rfl⟩
  next h0 h1 =>
    have h : operandBytes s.cfg.recognized (fetch8 s).value = 2 :=
      Nat.le_antisymm hle (Nat.lt_of_le_of_ne (Nat.pos_of_ne_zero h0) (Ne.symm h1))
    rw [fetchInstr_of_two h, encode_decodeBytes, h]; exact ⟨rfl, rfl⟩

end Sys2Proof.Machine

/-! SUPPORT for the statements about what an instruction and a Tick leave unchanged: what bus accesses can do, the footprint of
each instruction (R20 to R34, R44) and its cycles. -/

namespace Sys2Proof.Machine

/-! What the accesses of an instruction can do: store bytes, count cycles, run handlers. -/

/-- An effect of bus accesses only: nothing but MEM, the counter and what handlers touch may differ. -/
def BusOnly (s t : State) : Prop := ∃ mem cyc, HandlersOnly { s with mem := mem, cyc := cyc } t

theorem BusOnly.refl (s : State) : BusOnly s s := ⟨s.mem, s.cyc, HandlersOnly.refl s⟩

theorem HandlersOnly.busOnly {s t : State} (h : HandlersOnly s t) : BusOnly s t := ⟨s.mem, s.cyc, h⟩

theorem BusOnly.trans {s t u : State} (h : BusOnly s t) (h' : BusOnly t u) : BusOnly s u := by
  obtain ⟨_, _, _, _, _, _, _, rfl⟩ := h
  obtain ⟨m, c, p, r, w, d, n, rfl⟩ := h'
  exact ⟨m, c, p, r, w, d, n, rfl⟩

theorem BusOnly.setFlags {s t : State} (h : BusOnly s t) (f : Flags) : BusOnly (s.setFlags f) (t.setFlags f) := by
  obtain ⟨m, c, p, r, w, d, n, rfl⟩ := h
  exact ⟨m, c, p, r, w, d, n, rfl⟩

theorem BusOnly.flags_eq {s t : State} (h : BusOnly s t) : t.flags = s.flags := by
  obtain ⟨_, _, _, _, _, _, _, rfl⟩ := h; rfl

theorem addCyc_busOnly (s : State) (n : Nat) : BusOnly s (s.addCyc n) := ⟨s.mem, s.cyc + n, HandlersOnly.refl _⟩

theorem poke_busOnly (s : State) (a : Addr) (v : Byte) : BusOnly s (s.poke a v) :=
  ⟨s.mem.write a.toNat v, s.cyc, HandlersOnly.refl _⟩

theorem memWrite_busOnly (a : Addr) (v : Byte) (s : State) : BusOnly s (memWrite a v s) := by
  obtain ⟨-, h⟩ | ⟨-, h⟩ := memWrite_cases a v s
  · rw [h]; exact poke_busOnly s a v
  · exact h.busOnly

theorem readOperand_busOnly (m : Operand) (s : State) : BusOnly s (readOperand m s).state := by
  obtain ⟨n, h⟩ := operandValue_only m s
  rw [readOperand_eq]
  exact (addCyc_busOnly s n).trans h.busOnly

theorem refOf_ne_acc {m : Operand} (hm : m ≠ .acc) (s : State) : refOf m s ≠ .acc := by
  cases m with
  | acc => exact absurd rfl hm
  | _ => nofun

theorem writeRef_busOnly {r : Ref} (hr : r ≠ .acc) (v : Byte) (s : State) : BusOnly s (writeRef r v s) := by
  cases r with
  | acc => exact absurd rfl hr
  | imm _ => exact BusOnly.refl s
  | mem a => exact (addCyc_busOnly s 1).trans (memWrite_busOnly a v _)

theorem writeOperand_busOnly {m : Operand} (hm : m ≠ .acc) (v : Byte) (s : State) : BusOnly s (writeOperand m v s) := by
  rw [writeOperand, resolve_eq]
  exact (addCyc_busOnly s _).trans (writeRef_busOnly (refOf_ne_acc hm s) v _)

/-- A read-modify-write of memory leaves the flags of its operation, on some byte, and no register (R77). -/
theorem modifyOperand_busOnly {m : Operand} (hm : m ≠ .acc) (op : Byte → Flags → Outcome8) (s : State) :
    ∃ v, BusOnly (s.setFlags (op v s.flags).flags) (modifyOperand op m s) := by
  have hread := readOperand_busOnly m s
  refine ⟨(readOperand m s).value, ?_⟩
  rw [← hread.flags_eq]
  refine (hread.setFlags _).trans (writeRef_busOnly ?_ _ _)
  rw [resolve_eq]; exact refOf_ne_acc hm s

/-- ADC and SBC, once their operand is read: A, flags that are not control flags, and in decimal mode the counter of free
values; V in binary mode only (R172, R173, R175). -/
theorem exec_adc_sbc {i : Instr} {m : Operand} {s t : State} (h : exec i s = .next t) (hi : i = .adc m ∨ i = .sbc m) :
    ∃ a f n, t = { (readOperand m s).state with a := a, flags := f, draws := n } ∧ f.sameControl s.flags ∧
      (s.flags.d = false → n = (readOperand m s).state.draws) ∧ (s.flags.d = true → f.v = s.flags.v) := by
  rw [← (readOperand_busOnly m s).flags_eq]
  obtain rfl | rfl := hi
  · obtain ⟨-, rfl⟩ := whenForm_next.mp h
    exact addWithCarry_only _ _
  · obtain ⟨-, rfl⟩ := whenForm_next.mp h
    exact subWithBorrow_only _ _

/-- UNREC's meaning, where it completes, is its diagnostic event (R259). -/
theorem execUnrec_next {op : Byte} {s t : State} (h : exec (.unrec op) s = .next t) : t = emitDiag op (s.pc - 1) s := by
  by_cases hop : op ∈ s.cfg.recognized
  · rw [execUnrec_of_mem hop] at h; cases h
  · rw [execUnrec_of_notMem hop] at h; cases h; rfl

/-- A push changes memory and SP only. -/
theorem push8_only (v : Byte) (s : State) : ∃ mem, push8 v s = { s with mem := mem, sp := s.sp - 1 } := ⟨_, push8_eq v s⟩

theorem push16_only (w : Addr) (s : State) : ∃ mem, push16 w s = { s with mem := mem, sp := s.sp - 1 - 1 } :=
  ⟨_, push16_eq w s⟩

/-! The footprint of an instruction. -/

/-- What an instruction may write of the registers, the flags and the diagnostic output; B and R go together. -/
structure Footprint where
  a : Bool := false
  x : Bool := false
  y : Bool := false
  sp : Bool := false
  c : Bool := false
  z : Bool := false
  i : Bool := false
  d : Bool := false
  br : Bool := false
  v : Bool := false
  s : Bool := false
  diag : Bool := false

/-- The writers that R20, R21, R25 to R34 and R44 list, read by instruction. -/
def footprint : Instr → Footprint
  | .lda _ | .and _ | .ora _ | .eor _ | .txa | .tya => { a := true, z := true, s := true }
  | .ldx _ | .tax | .tsx | .inx | .dex => { x := true, z := true, s := true }
  | .ldy _ | .tay | .iny | .dey => { y := true, z := true, s := true }
  | .adc _ | .sbc _ => { a := true, c := true, z := true, v := true, s := true }
  | .cmp _ | .cpx _ | .cpy _ => { c := true, z := true, s := true }
  | .asl m | .lsr m | .rol m | .ror m => { a := m == .acc, c := true, z := true, s := true }
  | .inc _ | .dec _ => { z := true, s := true }
  | .bit _ => { z := true, v := true, s := true }
  | .pla => { a := true, sp := true, z := true, s := true }
  | .plp | .rti =>
    { sp := true, c := true, z := true, i := true, d := true, br := true, v := true, s := true }
  | .txs | .pha | .php | .rts | .jsr _ => { sp := true }
  | .clc | .sec => { c := true }
  | .cli | .sei => { i := true }
  | .cld | .sed => { d := true }
  | .clv => { v := true }
  | .unrec _ => { diag := true }
  | .sta _ | .stx _ | .sty _ | .jmpAbs _ | .jmpInd _ | .brk | .nop
  | .bcc _ | .bcs _ | .beq _ | .bne _ | .bmi _ | .bpl _ | .bvc _ | .bvs _ => {}

/-- The pieces of the state that a footprint speaks of. -/
structure Registers where
  a : Byte
  x : Byte
  y : Byte
  sp : Byte
  flags : Flags
  diag : List DiagEvent

/-- The registers, the flags and the diagnostic output, with what the footprint may write put aside. -/
def Footprint.outsideOf (w : Footprint) (s : State) : Registers where
  a := if w.a then 0 else s.a
  x := if w.x then 0 else s.x
  y := if w.y then 0 else s.y
  sp := if w.sp then 0 else s.sp
  flags :=
    { c := if w.c then false else s.flags.c
      z := if w.z then false else s.flags.z
      i := if w.i then false else s.flags.i
      d := if w.d then false else s.flags.d
      b := if w.br then false else s.flags.b
      r := if w.br then false else s.flags.r
      v := if w.v then false else s.flags.v
      s := if w.s then false else s.flags.s }
  diag := if w.diag then [] else s.diag

/-- Two states differ at most in the footprint. -/
def Footprint.Covers (w : Footprint) (s t : State) : Prop := w.outsideOf t = w.outsideOf s

/-- What is equal once the written is put aside, and yet differs, was written. -/
theorem written_of_ne {α : Type} {written : Bool} {v v' default : α}
    (h : (if written then default else v') = (if written then default else v)) (hne : v' ≠ v) : written = true := by
  cases written with
  | false => exact absurd h hne
  | true => rfl

section
variable {w : Footprint} {p q : State}

theorem Footprint.Covers.trans {o : State} (h : w.Covers o p) (h' : w.Covers p q) : w.Covers o q := Eq.trans h' h

theorem BusOnly.covers (h : BusOnly p q) (w : Footprint) : w.Covers p q := by
  obtain ⟨_, _, _, _, _, _, _, rfl⟩ := h; rfl

theorem Footprint.Covers.a (h : w.Covers p q) : q.a ≠ p.a → w.a = true := written_of_ne (congrArg (·.a) h)
theorem Footprint.Covers.x (h : w.Covers p q) : q.x ≠ p.x → w.x = true := written_of_ne (congrArg (·.x) h)
theorem Footprint.Covers.y (h : w.Covers p q) : q.y ≠ p.y → w.y = true := written_of_ne (congrArg (·.y) h)
theorem Footprint.Covers.sp (h : w.Covers p q) : q.sp ≠ p.sp → w.sp = true := written_of_ne (congrArg (·.sp) h)
theorem Footprint.Covers.c (h : w.Covers p q) : q.flags.c ≠ p.flags.c → w.c = true :=
  written_of_ne (congrArg (·.flags.c) h)
theorem Footprint.Covers.z (h : w.Covers p q) : q.flags.z ≠ p.flags.z → w.z = true :=
  written_of_ne (congrArg (·.flags.z) h)
theorem Footprint.Covers.i (h : w.Covers p q) : q.flags.i ≠ p.flags.i → w.i = true :=
  written_of_ne (congrArg (·.flags.i) h)
theorem Footprint.Covers.d (h : w.Covers p q) : q.flags.d ≠ p.flags.d → w.d = true :=
  written_of_ne (congrArg (·.flags.d) h)
theorem Footprint.Covers.b (h : w.Covers p q) : q.flags.b ≠ p.flags.b → w.br = true :=
  written_of_ne (congrArg (·.flags.b) h)
theorem Footprint.Covers.r (h : w.Covers p q) : q.flags.r ≠ p.flags.r → w.br = true :=
  written_of_ne (congrArg (·.flags.r) h)
theorem Footprint.Covers.v (h : w.Covers p q) : q.flags.v ≠ p.flags.v → w.v = true :=
  written_of_ne (congrArg (·.flags.v) h)
theorem Footprint.Covers.s (h : w.Covers p q) : q.flags.s ≠ p.flags.s → w.s = true :=
  written_of_ne (congrArg (·.flags.s) h)
theorem Footprint.Covers.diag (h : w.Covers p q) : q.diag ≠ p.diag → w.diag = true :=
  written_of_ne (congrArg (·.diag) h)

end

theorem modifyOperand_covers {w : Footprint} {op : Byte → Flags → Outcome8} {m : Operand} (hm : m ≠ .acc) (s : State)
    (hop : ∀ v, w.Covers s (s.setFlags (op v s.flags).flags)) : w.Covers s (modifyOperand op m s) := by
  obtain ⟨v, h⟩ := modifyOperand_busOnly hm op s
  exact (hop v).trans (h.covers w)

theorem exec_adc_sbc_covers {i : Instr} {m : Operand} {s t : State} (h : exec i s = .next t)
    (hi : i = .adc m ∨ i = .sbc m) : (footprint (.adc m)).Covers s t := by
  obtain ⟨_, f, _, rfl, ⟨hfi, hfd, hfb, hfr⟩, -⟩ := exec_adc_sbc h hi
  refine ((readOperand_busOnly m s).covers _).trans ?_
  rw [← (readOperand_busOnly m s).flags_eq] at hfi hfd hfb hfr
  simp only [Footprint.Covers, Footprint.outsideOf, hfi, hfd, hfb, hfr]; rfl

theorem branch_covers (w : Footprint) (taken : Bool) (rel : Byte) (s : State) : w.Covers s (branch taken rel s) := by
  cases taken <;> rfl

/-- No form of a store or of INC and DEC is the accumulator (R96). -/
theorem ne_acc_of_isStaForm {m : Operand} (h : m.isStaForm = true) : m ≠ .acc := by rintro rfl; cases h
theorem ne_acc_of_isStxForm {m : Operand} (h : m.isStxForm = true) : m ≠ .acc := by rintro rfl; cases h
theorem ne_acc_of_isStyForm {m : Operand} (h : m.isStyForm = true) : m ≠ .acc := by rintro rfl; cases h
theorem ne_acc_of_isIncForm {m : Operand} (h : m.isIncForm = true) : m ≠ .acc := by rintro rfl; cases h

/-- An instruction writes no register, no flag and no diagnostic event outside its footprint. -/
theorem exec_covers {i : Instr} {s t : State} (h : exec i s = .next t) : (footprint i).Covers s t := by
  cases i with
  | lda m | ldx m | ldy m | cmp m | cpx m | cpy m | and m | ora m | eor m | bit m =>
    obtain ⟨-, rfl⟩ := whenForm_next.mp h
    exact ((readOperand_busOnly m s).covers _).trans rfl
  | adc m => exact exec_adc_sbc_covers h (.inl rfl)
  | sbc m => exact exec_adc_sbc_covers h (.inr rfl)
  | sta m =>
    obtain ⟨hm, rfl⟩ := whenForm_next.mp h
    exact (writeOperand_busOnly (ne_acc_of_isStaForm hm) _ s).covers _
  | stx m =>
    obtain ⟨hm, rfl⟩ := whenForm_next.mp h
    exact (writeOperand_busOnly (ne_acc_of_isStxForm hm) _ s).covers _
  | sty m =>
    obtain ⟨hm, rfl⟩ := whenForm_next.mp h
    exact (writeOperand_busOnly (ne_acc_of_isStyForm hm) _ s).covers _
  | inc m | dec m =>
    obtain ⟨hm, rfl⟩ := whenForm_next.mp h
    exact modifyOperand_covers (ne_acc_of_isIncForm hm) s fun _ => rfl
  | asl m | lsr m | rol m | ror m =>
    obtain ⟨-, rfl⟩ := whenForm_next.mp h
    rcases eq_or_ne m .acc with rfl | hm
    · rfl
    · exact modifyOperand_covers hm s fun _ => rfl
  | pha | php => cases h; obtain ⟨_, hpush⟩ := push8_only _ s; rw [hpush]; rfl
  | pla | plp => cases h; rw [pull8_eq]; rfl
  | jsr w => cases h; obtain ⟨_, hpush⟩ := push16_only _ s; rw [hpush]; rfl
  | rts => cases h; rw [pull16_eq]; rfl
  | rti => cases h; rw [returnFromInterrupt_eq]; rfl
  | jmpInd w => cases h; exact ((memReadWord_only w s).busOnly.covers _).trans rfl
  | bcc r | bcs r | beq r | bne r | bmi r | bpl r | bvc r | bvs r => cases h; exact branch_covers _ _ r s
  | unrec op => rw [execUnrec_next h]; rfl
  | _ => cases h; rfl

/-! Reading the footprints: who writes what. -/

section
variable {i : Instr}

theorem writers_of_a (h : (footprint i).a = true) :
    i = .txa ∨ i = .tya ∨ i = .pla ∨ i = .asl .acc ∨ i = .lsr .acc ∨ i = .rol .acc ∨ i = .ror .acc ∨
      ∃ m, i = .lda m ∨ i = .adc m ∨ i = .sbc m ∨ i = .and m ∨ i = .ora m ∨ i = .eor m := by
  cases i with
  | txa | tya | pla | lda _ | adc _ | sbc _ | and _ | ora _ | eor _ => simp
  | asl m | lsr m | rol m | ror m => simpa [footprint] using h
  | _ => cases h

theorem writers_of_x (h : (footprint i).x = true) : i = .tax ∨ i = .tsx ∨ i = .inx ∨ i = .dex ∨ ∃ m, i = .ldx m := by
  cases i with
  | tax | tsx | inx | dex | ldx _ => simp
  | _ => cases h

theorem writers_of_y (h : (footprint i).y = true) : i = .tay ∨ i = .iny ∨ i = .dey ∨ ∃ m, i = .ldy m := by
  cases i with
  | tay | iny | dey | ldy _ => simp
  | _ => cases h

theorem writers_of_sp (h : (footprint i).sp = true) :
    i = .txs ∨ i = .pha ∨ i = .php ∨ i = .pla ∨ i = .plp ∨ i = .rts ∨ i = .rti ∨ ∃ w, i = .jsr w := by
  cases i with
  | txs | pha | php | pla | plp | rts | rti | jsr _ => simp
  | _ => cases h

theorem writers_of_c (h : (footprint i).c = true) :
    i = .clc ∨ i = .sec ∨ i = .plp ∨ i = .rti ∨
      ∃ m, i = .adc m ∨ i = .sbc m ∨ i = .cmp m ∨ i = .cpx m ∨ i = .cpy m ∨ i = .asl m ∨ i = .lsr m ∨ i = .rol m ∨
        i = .ror m := by
  cases i with
  | clc | sec | plp | rti | adc _ | sbc _ | cmp _ | cpx _ | cpy _ | asl _ | lsr _ | rol _ | ror _ => simp
  | _ => cases h

theorem writers_of_i (h : (footprint i).i = true) : i = .cli ∨ i = .sei ∨ i = .plp ∨ i = .rti := by
  cases i with
  | cli | sei | plp | rti => simp
  | _ => cases h

theorem writers_of_d (h : (footprint i).d = true) : i = .cld ∨ i = .sed ∨ i = .plp ∨ i = .rti := by
  cases i with
  | cld | sed | plp | rti => simp
  | _ => cases h

theorem writers_of_br (h : (footprint i).br = true) : i = .plp ∨ i = .rti := by
  cases i with
  | plp | rti => simp
  | _ => cases h

theorem writers_of_v (h : (footprint i).v = true) :
    i = .clv ∨ i = .plp ∨ i = .rti ∨ (∃ m, i = .bit m) ∨ ∃ m, i = .adc m ∨ i = .sbc m := by
  cases i with
  | clv | plp | rti | bit _ | adc _ | sbc _ => simp
  | _ => cases h

/-- Z and S have so many writers that R26 and R34 are clearer by who does not write them. -/
theorem nonwriters_of_zs (h : (footprint i).z = true ∨ (footprint i).s = true) :
    (∀ m, i ≠ .sta m ∧ i ≠ .stx m ∧ i ≠ .sty m) ∧ (∀ w, i ≠ .jmpAbs w ∧ i ≠ .jmpInd w ∧ i ≠ .jsr w) ∧
      (∀ r, i ≠ .bcc r ∧ i ≠ .bcs r ∧ i ≠ .beq r ∧ i ≠ .bne r ∧ i ≠ .bmi r ∧ i ≠ .bpl r ∧ i ≠ .bvc r ∧ i ≠ .bvs r) ∧
      i ≠ .txs ∧ i ≠ .pha ∧ i ≠ .php ∧ i ≠ .rts ∧ i ≠ .brk ∧ i ≠ .nop ∧ (∀ op, i ≠ .unrec op) ∧
      i ≠ .clc ∧ i ≠ .sec ∧ i ≠ .cli ∧ i ≠ .sei ∧ i ≠ .cld ∧ i ≠ .sed ∧ i ≠ .clv := by
  cases i with
  | sta _ | stx _ | sty _ | jmpAbs _ | jmpInd _ | jsr _
  | bcc _ | bcs _ | beq _ | bne _ | bmi _ | bpl _ | bvc _ | bvs _
  | txs | pha | php | rts | brk | nop | unrec _ | clc | sec | cli | sei | cld | sed | clv => simp [footprint] at h
  | _ => simp

theorem writers_of_diag (h : (footprint i).diag = true) : ∃ op, i = .unrec op := by
  cases i with
  | unrec op => exact ⟨op, rfl⟩
  | _ => cases h

end

/-- Settles O54, from the footprints. -/
theorem onlyTheListedInstructionsWriteRegisters : Obligations.OnlyTheListedInstructionsWriteRegisters := by
  intro i s t h
  have hcov := exec_covers h
  exact ⟨fun ha => writers_of_a (hcov.a ha), fun hx => writers_of_x (hcov.x hx), fun hy => writers_of_y (hcov.y hy),
    fun hsp => writers_of_sp (hcov.sp hsp)⟩

/-- PLP and RTI force B and R to 1 (R32, R163, R224). -/
theorem exec_forces_br {i : Instr} {s t : State} (h : exec i s = .next t) (hi : i = .plp ∨ i = .rti) :
    t.flags.b = true ∧ t.flags.r = true := by
  obtain rfl | rfl := hi
  · cases h; exact ⟨rfl, rfl⟩
  · cases h; rw [returnFromInterrupt_eq]; exact ⟨rfl, rfl⟩

/-- In decimal mode ADC and SBC do not write V (R172, R173). -/
theorem exec_decimal_v {m : Operand} {i : Instr} {s t : State} (h : exec i s = .next t) (hi : i = .adc m ∨ i = .sbc m)
    (hd : s.flags.d = true) : t.flags.v = s.flags.v := by
  obtain ⟨_, _, _, rfl, -, -, hv⟩ := exec_adc_sbc h hi
  exact hv hd

/-- Settles O55, from the footprints; B and R are written with 1, and V in binary mode only. -/
theorem onlyTheListedInstructionsWriteFlags : Obligations.OnlyTheListedInstructionsWriteFlags := by
  intro i s t h
  have hcov := exec_covers h
  refine ⟨fun hc => writers_of_c (hcov.c hc), fun hi => writers_of_i (hcov.i hi), fun hd => writers_of_d (hcov.d hd),
    fun hb => ?_, fun hr => ?_, fun hv => ?_, fun hzs => nonwriters_of_zs (hzs.imp hcov.z hcov.s)⟩
  · have hi := writers_of_br (hcov.b hb)
    exact ⟨(exec_forces_br h hi).1, hi⟩
  · have hi := writers_of_br (hcov.r hr)
    exact ⟨(exec_forces_br h hi).2, hi⟩
  · obtain hi | hi | hi | hi | ⟨m, hi⟩ := writers_of_v (hcov.v hv)
    · exact .inl hi
    · exact .inr (.inl hi)
    · exact .inr (.inr (.inl hi))
    · exact .inr (.inr (.inr (.inl hi)))
    · refine .inr (.inr (.inr (.inr ⟨?_, m, hi⟩)))
      rw [← Bool.not_eq_true]
      exact fun hd => hv (exec_decimal_v h hi hd)

end Sys2Proof.Machine

/-! SUPPORT for the statements about cycles (R40, R325), the outside (R36, R37, R44, R64) and a whole Tick. -/

namespace Sys2Proof.Machine

/-! The cycles of the accesses that a meaning makes, its instruction's bytes apart. -/

/-- The cycles of resolving an operand and of one access to it (R114, R115, R129). -/
def operandCycles : Operand → Nat
  | .acc | .imm _ => 0
  | m => pointerCycles m + 1

/-- The cycle of the write-back of a read-modify-write (R77, R115). -/
def writeBackCycles : Operand → Nat
  | .acc | .imm _ => 0
  | _ => 1

/-- The cycles that a meaning counts itself. -/
def accessesOf (i : Instr) (taken : Bool) : Nat :=
  match i with
  | .lda m | .ldx m | .ldy m | .sta m | .stx m | .sty m | .adc m | .sbc m | .cmp m | .cpx m | .cpy m
  | .and m | .ora m | .eor m | .bit m => operandCycles m
  | .asl m | .lsr m | .rol m | .ror m | .inc m | .dec m => operandCycles m + writeBackCycles m
  | .pha | .php | .pla | .plp => 1
  | .rts | .jmpInd _ | .jsr _ => 2
  | .rti => 3
  | .bcc _ | .bcs _ | .beq _ | .bne _ | .bmi _ | .bpl _ | .bvc _ | .bvs _ => if taken then 1 else 0
  | .tax | .tay | .txa | .tya | .tsx | .txs | .inx | .iny | .dex | .dey
  | .clc | .sec | .cli | .sei | .cld | .sed | .clv | .nop | .brk | .jmpAbs _ | .unrec _ => 0

theorem accessCycles_eq (m : Operand) : accessCycles m = 1 + m.bytes.length + operandCycles m := by cases m <;> rfl

theorem accessCycles_bounds (m : Operand) : 1 ≤ accessCycles m ∧ accessCycles m ≤ 5 := by
  cases m <;> simp [accessCycles]

theorem isShiftForm_of_isIncForm {m : Operand} (h : m.isIncForm = true) : m.isShiftForm = true := by
  cases m with
  | zp _ | zpx _ | abs _ | abx _ => rfl
  | _ => cases h

theorem modifyCycles_eq {m : Operand} (h : m.isShiftForm = true) :
    modifyCycles m = 1 + m.bytes.length + (operandCycles m + writeBackCycles m) := by
  cases m with
  | acc | zp _ | zpx _ | abs _ | abx _ => rfl
  | _ => cases h

theorem modifyCycles_bounds {m : Operand} (h : m.isShiftForm = true) : 1 ≤ modifyCycles m ∧ modifyCycles m ≤ 5 := by
  cases m with
  | acc | zp _ | zpx _ | abs _ | abx _ => simp [modifyCycles, accessCycles]
  | _ => cases h

/-- The class table of R325 counts the instruction's bytes and its accesses. -/
theorem instrCycles_eq {i : Instr} (h : i.wellFormed = true) (taken : Bool) :
    instrCycles i taken = 1 + i.operandPart.length + accessesOf i taken := by
  cases i with
  | lda m | ldx m | ldy m | sta m | stx m | sty m | adc m | sbc m | cmp m | cpx m | cpy m
  | and m | ora m | eor m | bit m => exact accessCycles_eq m
  | asl m | lsr m | rol m | ror m => exact modifyCycles_eq h
  | inc m | dec m => exact modifyCycles_eq (isShiftForm_of_isIncForm h)
  | bcc r | bcs r | beq r | bne r | bmi r | bpl r | bvc r | bvs r => cases taken <;> rfl
  | _ => rfl

theorem instrCycles_bounds {i : Instr} (h : i.wellFormed = true) (taken : Bool) :
    1 ≤ instrCycles i taken ∧ instrCycles i taken ≤ 5 := by
  cases i with
  | lda m | ldx m | ldy m | sta m | stx m | sty m | adc m | sbc m | cmp m | cpx m | cpy m
  | and m | ora m | eor m | bit m => exact accessCycles_bounds m
  | asl m | lsr m | rol m | ror m => exact modifyCycles_bounds h
  | inc m | dec m => exact modifyCycles_bounds (isShiftForm_of_isIncForm h)
  | bcc r | bcs r | beq r | bne r | bmi r | bpl r | bvc r | bvs r => cases taken <;> simp [instrCycles]
  | _ => simp [instrCycles]

theorem HandlersOnly.cyc_eq {s t : State} (h : HandlersOnly s t) : t.cyc = s.cyc := by
  obtain ⟨_, _, _, _, _, rfl⟩ := h; rfl

theorem memWrite_cyc (a : Addr) (v : Byte) (s : State) : (memWrite a v s).cyc = s.cyc := by
  obtain ⟨-, h⟩ | ⟨-, h⟩ := memWrite_cases a v s
  · rw [h]; rfl
  · exact h.cyc_eq

theorem readOperand_cyc (m : Operand) (s : State) : (readOperand m s).state.cyc = s.cyc + operandCycles m := by
  rw [readOperand_eq]
  cases m with
  | acc | imm _ => rfl
  | _ => exact (memRead_only _ _).cyc_eq

theorem writeOperand_cyc (m : Operand) (v : Byte) (s : State) :
    (writeOperand m v s).cyc = s.cyc + operandCycles m := by
  cases m with
  | acc | imm _ => rfl
  | _ => rw [writeOperand_mem v rfl, memWrite_cyc]; rfl

theorem modifyOperand_cyc (op : Byte → Flags → Outcome8) (m : Operand) (s : State) :
    (modifyOperand op m s).cyc = s.cyc + (operandCycles m + writeBackCycles m) := by
  cases m with
  | acc | imm _ => rfl
  | _ =>
    rw [modifyOperand_mem rfl]
    simp only [memWrite_cyc, State.addCyc_cyc, State.setFlags_cyc, (memRead_only _ _).cyc_eq, Nat.add_assoc]
    rfl

theorem branch_cyc (taken : Bool) (rel : Byte) (s : State) :
    (branch taken rel s).cyc = s.cyc + if taken then 1 else 0 := by cases taken <;> rfl

/-- A meaning counts the cycles of its accesses; neither a value nor a page crossing matters (R131). -/
theorem exec_cyc {i : Instr} {s t : State} (h : exec i s = .next t) :
    t.cyc = s.cyc + accessesOf i (branchTaken i s.flags) := by
  cases i with
  | lda m | ldx m | ldy m | cmp m | cpx m | cpy m | and m | ora m | eor m | bit m =>
    obtain ⟨-, rfl⟩ := whenForm_next.mp h; exact readOperand_cyc m s
  | adc m => obtain ⟨_, _, _, rfl, -⟩ := exec_adc_sbc h (.inl rfl); exact readOperand_cyc m s
  | sbc m => obtain ⟨_, _, _, rfl, -⟩ := exec_adc_sbc h (.inr rfl); exact readOperand_cyc m s
  | sta m | stx m | sty m => obtain ⟨-, rfl⟩ := whenForm_next.mp h; exact writeOperand_cyc m _ s
  | inc m | dec m | asl m | lsr m | rol m | ror m =>
    obtain ⟨-, rfl⟩ := whenForm_next.mp h; exact modifyOperand_cyc _ m s
  | pha | php => cases h; obtain ⟨_, hpush⟩ := push8_only _ s; rw [hpush]; rfl
  | pla | plp => cases h; rw [pull8_eq]; rfl
  | jsr w => cases h; obtain ⟨_, hpush⟩ := push16_only _ s; rw [hpush]; rfl
  | rts => cases h; rw [pull16_eq]; rfl
  | rti => cases h; rw [returnFromInterrupt_eq]; rfl
  | jmpInd w => cases h; exact congrArg (· + 2) (memReadWord_only w s).cyc_eq
  | bcc r | bcs r | beq r | bne r | bmi r | bpl r | bvc r | bvs r => cases h; exact branch_cyc _ r s
  | unrec op => rw [execUnrec_next h]; rfl
  | _ => cases h; rfl

/-! Where no offset is bound, no access reaches a handler (R62, R63). -/

section
variable {s t : State}

theorem isBound_of_noBound (h : s.cfg.bound = []) (a : Addr) : s.isBound a = false := by
  simp [State.isBound, h]

theorem KeepsTheOutside.refl (s : State) : KeepsTheOutside s s := ⟨rfl, rfl, rfl, rfl⟩

theorem KeepsTheOutside.trans {u : State} (h : KeepsTheOutside s t) (h' : KeepsTheOutside t u) : KeepsTheOutside s u := by
  obtain ⟨hpending, henv, hdev, hdraws⟩ := h
  obtain ⟨hpending', henv', hdev', hdraws'⟩ := h'
  exact ⟨hpending'.trans hpending, henv'.trans henv, hdev'.trans hdev, hdraws'.trans hdraws⟩

theorem memRead_keepsTheOutside (h : s.cfg.bound = []) (a : Addr) : KeepsTheOutside s (memRead a s).state := by
  rw [memRead_unbound (isBound_of_noBound h a)]; exact KeepsTheOutside.refl s

theorem memReadWord_keepsTheOutside (h : s.cfg.bound = []) (a : Addr) : KeepsTheOutside s (memReadWord a s).state := by
  rw [memReadWord_unbound (isBound_of_noBound h a) (isBound_of_noBound h _)]; exact KeepsTheOutside.refl s

theorem memWrite_keepsTheOutside (h : s.cfg.bound = []) (a : Addr) (v : Byte) : KeepsTheOutside s (memWrite a v s) := by
  rw [memWrite_unbound (isBound_of_noBound h a)]; exact KeepsTheOutside.refl s

theorem readOperand_keepsTheOutside (h : s.cfg.bound = []) (m : Operand) :
    KeepsTheOutside s (readOperand m s).state := by
  rw [readOperand_eq, operandValue]
  split
  · exact KeepsTheOutside.refl s
  · exact memRead_keepsTheOutside (s := s.addCyc _) h _

theorem writeRef_keepsTheOutside (h : s.cfg.bound = []) (r : Ref) (v : Byte) : KeepsTheOutside s (writeRef r v s) := by
  cases r with
  | acc | imm _ => exact KeepsTheOutside.refl s
  | mem a => exact memWrite_keepsTheOutside (s := s.addCyc 1) h a v

theorem writeOperand_keepsTheOutside (h : s.cfg.bound = []) (m : Operand) (v : Byte) :
    KeepsTheOutside s (writeOperand m v s) := by
  rw [writeOperand, resolve_eq]
  exact writeRef_keepsTheOutside (s := s.addCyc _) h _ v

theorem modifyOperand_keepsTheOutside (h : s.cfg.bound = []) (op : Byte → Flags → Outcome8) (m : Operand) :
    KeepsTheOutside s (modifyOperand op m s) := by
  have hbound : (readOperand m s).state.cfg.bound = [] := by rw [(readOperand_keepsTheTick m s).cfg, h]
  have hread (f : Flags) : KeepsTheOutside s ((readOperand m s).state.setFlags f) := readOperand_keepsTheOutside h m
  have hwrite (f : Flags) (r : Ref) (v : Byte) : KeepsTheOutside ((readOperand m s).state.setFlags f)
      (writeRef r v ((readOperand m s).state.setFlags f)) :=
    writeRef_keepsTheOutside (s := (readOperand m s).state.setFlags f) hbound r v
  exact (hread _).trans (hwrite _ _ _)

/-- Apart from BRK, which requests, and ADC and SBC, which may draw free values, no meaning reaches the outside. -/
theorem exec_keepsTheOutside {i : Instr} (hbound : s.cfg.bound = []) (h : exec i s = .next t) (hbrk : i ≠ .brk)
    (hbcd : ∀ m, i ≠ .adc m ∧ i ≠ .sbc m) : KeepsTheOutside s t := by
  cases i with
  | brk => exact absurd rfl hbrk
  | adc m => exact absurd rfl (hbcd m).1
  | sbc m => exact absurd rfl (hbcd m).2
  | lda m | ldx m | ldy m | cmp m | cpx m | cpy m | and m | ora m | eor m | bit m =>
    obtain ⟨-, rfl⟩ := whenForm_next.mp h; exact readOperand_keepsTheOutside hbound m
  | sta m | stx m | sty m => obtain ⟨-, rfl⟩ := whenForm_next.mp h; exact writeOperand_keepsTheOutside hbound m _
  | inc m | dec m | asl m | lsr m | rol m | ror m =>
    obtain ⟨-, rfl⟩ := whenForm_next.mp h; exact modifyOperand_keepsTheOutside hbound _ m
  | pha | php => cases h; obtain ⟨_, hpush⟩ := push8_only _ s; rw [hpush]; exact KeepsTheOutside.refl s
  | pla | plp => cases h; rw [pull8_eq]; exact KeepsTheOutside.refl s
  | jsr w => cases h; obtain ⟨_, hpush⟩ := push16_only _ s; rw [hpush]; exact KeepsTheOutside.refl s
  | rts => cases h; rw [pull16_eq]; exact KeepsTheOutside.refl s
  | rti => cases h; rw [returnFromInterrupt_eq]; exact KeepsTheOutside.refl s
  | jmpInd w => cases h; exact memReadWord_keepsTheOutside hbound w
  | bcc r | bcs r | beq r | bne r | bmi r | bpl r | bvc r | bvs r =>
    cases h; unfold branch; split_ifs <;> exact KeepsTheOutside.refl s
  | unrec op => rw [execUnrec_next h]; exact KeepsTheOutside.refl s
  | _ => cases h; exact KeepsTheOutside.refl s

/-- ADC and SBC draw free values in decimal mode only (R175). -/
theorem exec_adc_sbc_outside {i : Instr} {m : Operand} (hbound : s.cfg.bound = []) (h : exec i s = .next t)
    (hi : i = .adc m ∨ i = .sbc m) :
    t.pending = s.pending ∧ t.env = s.env ∧ t.devEvents = s.devEvents ∧ (s.flags.d = false → t.draws = s.draws) := by
  obtain ⟨hpending, henv, hdev, hdraws⟩ := readOperand_keepsTheOutside hbound m
  obtain ⟨_, _, _, rfl, -, hn, -⟩ := exec_adc_sbc h hi
  exact ⟨hpending, henv, hdev, fun hd => (hn hd).trans hdraws⟩

end

/-- Settles O57: the tick's fields by `KeepsTheTick`, the diagnostic output by the footprint, the outside by the accesses. -/
theorem instructionsLeaveTheOutside : Obligations.InstructionsLeaveTheOutside := by
  intro i s t h
  obtain ⟨hper, hpace, hcross, hcfg, -⟩ := exec_keepsTheTick h
  refine ⟨hper, hpace, hcross, hcfg, (exec_cyc h).symm ▸ Nat.le_add_right _ _, fun hunrec => ?_, fun hbound => ?_⟩
  · by_contra hdiag
    obtain ⟨op, hop⟩ := writers_of_diag ((exec_covers h).diag hdiag)
    exact hunrec op hop
  · by_cases hbrk : i = .brk
    · subst hbrk; cases h; exact ⟨absurd rfl, rfl, rfl, fun _ => rfl⟩
    by_cases hbcd : ∃ m, i = .adc m ∨ i = .sbc m
    · obtain ⟨m, hm⟩ := hbcd
      obtain ⟨hpending, henv, hdev, hdraws⟩ := exec_adc_sbc_outside hbound h hm
      exact ⟨fun _ => hpending, henv, hdev, fun hd => hdraws (hd.resolve_left fun hne =>
        hm.elim (hne m).1 (hne m).2)⟩
    · push Not at hbcd
      obtain ⟨hpending, henv, hdev, hdraws⟩ := exec_keepsTheOutside hbound h hbrk hbcd
      exact ⟨fun _ => hpending, henv, hdev, fun _ => hdraws⟩

/-! A whole Tick: what its parts do to the flags, the counter and the diagnostic output. -/

/-- B and R are at least what they were. -/
def Flags.KeepsBreakAndReserved (f g : Flags) : Prop := (f.b = true → g.b = true) ∧ (f.r = true → g.r = true)

theorem Flags.KeepsBreakAndReserved.trans {f g h : Flags} (hfg : f.KeepsBreakAndReserved g)
    (hgh : g.KeepsBreakAndReserved h) : f.KeepsBreakAndReserved h := ⟨hgh.1 ∘ hfg.1, hgh.2 ∘ hfg.2⟩

theorem Flags.enter_keepsBreakAndReserved (k : IntKind) (f : Flags) : f.KeepsBreakAndReserved (f.enter k) := by
  cases k with
  | reset | nmi | irq => exact ⟨id, id⟩
  | brk => exact ⟨fun _ => rfl, id⟩

/-- PLP and RTI write B and R, with 1; no other instruction writes them. -/
theorem exec_keepsBreakAndReserved {i : Instr} {s t : State} (h : exec i s = .next t) :
    s.flags.KeepsBreakAndReserved t.flags := by
  have hcov := exec_covers h
  refine ⟨fun hb => ?_, fun hr => ?_⟩
  · by_contra hne
    exact hne (exec_forces_br h (writers_of_br (hcov.b fun he => hne (he.trans hb)))).1
  · by_contra hne
    exact hne (exec_forces_br h (writers_of_br (hcov.r fun he => hne (he.trans hr)))).2

theorem HandlersOnly.flags_eq {s t : State} (h : HandlersOnly s t) : t.flags = s.flags := h.busOnly.flags_eq

theorem HandlersOnly.diag_eq {s t : State} (h : HandlersOnly s t) : t.diag = s.diag := by
  obtain ⟨_, _, _, _, _, rfl⟩ := h; rfl

/-- A meaning that completes was given an instruction (log entry 13). -/
theorem wellFormed_of_exec {i : Instr} {s t : State} (h : exec i s = .next t) : i.wellFormed = true := by
  by_contra hwf
  rw [exec_of_illFormed (Bool.not_eq_true _ ▸ hwf)] at h
  cases h

theorem operandPart_length_decodeBytes (recognized : List Byte) (op b1 b2 : Byte) :
    (decodeBytes recognized op b1 b2).operandPart.length = operandBytes recognized op := by
  obtain ⟨_, -, hbytes⟩ := Option.map_eq_some_iff.mp (encode_decodeBytes recognized op b1 b2)
  rw [(List.cons.inj hbytes).2, List.length_take_of_le (operandBytes_le recognized op)]

theorem extraCostOf_of_nil {s : State} (h : s.cfg.extraCost = []) (i : Instr) : s.extraCostOf i = 0 := by
  unfold State.extraCostOf
  rw [h]
  cases i.opcode <;> rfl

/-- The begin of a Tick leaves the diagnostic output; the flags are left or entered, and at most 3 cycles count (R275). -/
theorem beginTick_effect (s : State) :
    (beginTick s).diag = s.diag ∧ s.flags.KeepsBreakAndReserved (beginTick s).flags ∧ (beginTick s).cyc ≤ 3 := by
  cases h : s.pending with
  | none => rw [beginTick_of_none h]; exact ⟨rfl, ⟨id, id⟩, Nat.zero_le 3⟩
  | some k =>
    obtain ⟨_, _, hframe⟩ := pushFrame_only k { s with cyc := 0 }
    rw [beginTick_of_some h, service_eq, hframe]
    exact ⟨rfl, s.flags.enter_keepsBreakAndReserved k, Nat.le_refl 3⟩

/-- The fetch leaves flags and diagnostic output and counts a cycle for each byte of the instruction. -/
theorem fetchInstr_effect (s : State) :
    (fetchInstr s).state.flags = s.flags ∧ (fetchInstr s).state.diag = s.diag ∧
      (fetchInstr s).state.cyc = s.cyc + (1 + (fetchInstr s).instr.operandPart.length) := by
  obtain ⟨op, b1, b2, hinstr, h⟩ := fetchInstr_only s
  refine ⟨h.flags_eq, h.diag_eq, h.cyc_eq.trans ?_⟩
  rw [hinstr, operandPart_length_decodeBytes]; rfl

/-- The instruction part of a Tick counts the cycles of the class table and EXTRA_COST (R325), in every state. -/
theorem stepInstr_cyc {s t : State} (h : stepInstr s = .next t) :
    (fetchInstr s).instr.wellFormed = true ∧
      t.cyc = s.cyc + instrCycles (fetchInstr s).instr (branchTaken (fetchInstr s).instr s.flags) +
        t.extraCostOf (fetchInstr s).instr := by
  obtain ⟨u, hu, rfl⟩ := stepInstr_next.mp h
  obtain ⟨hflags, -, hfetch⟩ := fetchInstr_effect s
  have hwf := wellFormed_of_exec hu
  refine ⟨hwf, ?_⟩
  have hexec := exec_cyc hu
  rw [hflags, hfetch, Nat.add_assoc, ← instrCycles_eq hwf] at hexec
  exact congrArg (· + _) hexec

/-- The end of a Tick and the host's calls leave flags, counter, configuration and diagnostic output. -/
theorem endOfStep_effect (s : State) :
    (hostEvents (endTick s)).flags = s.flags ∧ (hostEvents (endTick s)).cyc = s.cyc ∧
      (hostEvents (endTick s)).cfg = s.cfg ∧ (hostEvents (endTick s)).diag = s.diag ∧
      (hostEvents (endTick s)).peripherals = s.peripherals.map fun q => (tickPeripheral s.cyc q).peripheral := by
  obtain ⟨_, hhost⟩ := hostEvents_only (endTick s)
  obtain ⟨_, _, hend⟩ := endTick_only s
  rw [hhost, hend]
  exact ⟨rfl, rfl, rfl, rfl, rfl⟩

/-- Settles O11: the service sets flags, PLP and RTI force B and R, and nothing else writes them. -/
theorem breakAndReservedAreNeverCleared : Obligations.BreakAndReservedAreNeverCleared := by
  intro s t h
  obtain ⟨u, hu, rfl⟩ := step_next.mp h
  obtain ⟨v, hv, rfl⟩ := stepInstr_next.mp hu
  obtain ⟨-, hbegin, -⟩ := beginTick_effect s
  obtain ⟨hfetch, -⟩ := fetchInstr_effect (beginTick s)
  have hexec := exec_keepsBreakAndReserved hv
  rw [hfetch] at hexec
  obtain ⟨hend, -⟩ := endOfStep_effect (v.addCyc (v.extraCostOf (fetchInstr (beginTick s)).instr))
  rw [hend]
  exact hbegin.trans hexec

/-- Settles O12: at most 3 cycles for a service, 1 to 5 for an instruction. -/
theorem tickCountsOneToEightCycles : Obligations.TickCountsOneToEightCycles := by
  intro s t hextra h
  obtain ⟨u, hu, rfl⟩ := step_next.mp h
  obtain ⟨-, -, hbegin⟩ := beginTick_effect s
  obtain ⟨hwf, hcyc⟩ := stepInstr_cyc hu
  obtain ⟨hmin, hmax⟩ := instrCycles_bounds hwf (branchTaken (fetchInstr (beginTick s)).instr (beginTick s).flags)
  have hcfg : u.cfg.extraCost = [] := by
    rw [((beginTick_keepsTheTick s).trans (stepInstr_keepsTheTick hu)).cfg, hextra]
  obtain ⟨-, hend, -⟩ := endOfStep_effect u
  rw [extraCostOf_of_nil hcfg] at hcyc
  rw [hend]
  omega

/-- An instruction appends at most one diagnostic event, UNREC's (R260). -/
theorem exec_diag {i : Instr} {s t : State} (h : exec i s = .next t) :
    ∃ new, t.diag = s.diag ++ new ∧ new.length ≤ 1 := by
  by_cases hdiag : t.diag = s.diag
  · exact ⟨[], by rw [hdiag, List.append_nil], Nat.zero_le 1⟩
  · obtain ⟨op, rfl⟩ := writers_of_diag ((exec_covers h).diag hdiag)
    rw [execUnrec_next h]
    exact ⟨_, rfl, Nat.le_refl 1⟩

/-- A call of `tick` leaves what a peripheral is registered with (R290, R291). -/
theorem tickPeripheral_registration (delta : Nat) (p : Peripheral) :
    ((tickPeripheral delta p).peripheral.divisor, (tickPeripheral delta p).peripheral.usesHelper) =
      (p.divisor, p.usesHelper) := by
  unfold tickPeripheral cross
  split_ifs <;> rfl

/-- Settles O14: before its end a Tick leaves the registrations, and only the instruction emits. -/
theorem configurationIsFixedAndDiagnosticsGrow : Obligations.ConfigurationIsFixedAndDiagnosticsGrow := by
  intro s t h
  obtain ⟨u, hu, rfl⟩ := step_next.mp h
  obtain ⟨hper, -, -, hcfg, -⟩ := (beginTick_keepsTheTick s).trans (stepInstr_keepsTheTick hu)
  obtain ⟨-, -, hendCfg, hendDiag, hendPer⟩ := endOfStep_effect u
  refine ⟨hendCfg.trans hcfg, ?_, ?_⟩
  · rw [hendPer, hper, List.map_map]
    exact List.map_congr_left fun p _ => tickPeripheral_registration u.cyc p
  · obtain ⟨v, hv, rfl⟩ := stepInstr_next.mp hu
    obtain ⟨new, hnew, hlen⟩ := exec_diag hv
    obtain ⟨hbegin, -⟩ := beginTick_effect s
    obtain ⟨-, hfetch, -⟩ := fetchInstr_effect (beginTick s)
    refine ⟨new, ?_, hlen⟩
    rw [hendDiag, ← hbegin, ← hfetch]
    exact hnew

end Sys2Proof.Machine

/-! SUPPORT for the statements about MEM under an instruction and a whole Tick (R60, R77): what reads leave the memory as it
is, and that every write keeps its canonical form. -/

namespace Sys2Proof.Machine

/-! Reads, and the meanings that only read, leave MEM as it is. -/

theorem HandlersOnly.mem_eq {s t : State} (h : HandlersOnly s t) : t.mem = s.mem := by
  obtain ⟨_, _, _, _, _, rfl⟩ := h; rfl

theorem readOperand_mem (m : Operand) (s : State) : (readOperand m s).state.mem = s.mem := by
  obtain ⟨_, h⟩ := operandValue_only m s
  rw [readOperand_eq]; exact h.mem_eq

theorem branch_mem (taken : Bool) (rel : Byte) (s : State) : (branch taken rel s).mem = s.mem := by
  cases taken <;> rfl

theorem exec_mem_of_not_stores {i : Instr} {s t : State} (h : exec i s = .next t) (hi : stores i = false) :
    t.mem = s.mem := by
  cases i with
  | sta _ | stx _ | sty _ | inc _ | dec _ | pha | php | jsr _ => cases hi
  | lda m | ldx m | ldy m | cmp m | cpx m | cpy m | and m | ora m | eor m | bit m =>
    obtain ⟨-, rfl⟩ := whenForm_next.mp h; exact readOperand_mem m s
  | adc m => obtain ⟨_, _, _, rfl, -⟩ := exec_adc_sbc h (.inl rfl); exact readOperand_mem m s
  | sbc m => obtain ⟨_, _, _, rfl, -⟩ := exec_adc_sbc h (.inr rfl); exact readOperand_mem m s
  | asl m | lsr m | rol m | ror m =>
    obtain ⟨-, rfl⟩ := whenForm_next.mp h
    obtain rfl : m = .acc := by simpa [stores] using hi
    rfl
  | pla | plp => cases h; rw [pull8_eq]; rfl
  | rts => cases h; rw [pull16_eq]; rfl
  | rti => cases h; rw [returnFromInterrupt_eq]
  | jmpInd w => cases h; exact (memReadWord_only w s).mem_eq
  | bcc r | bcs r | beq r | bne r | bmi r | bpl r | bvc r | bvs r => cases h; exact branch_mem _ r s
  | unrec op => rw [execUnrec_next h]; rfl
  | _ => cases h; rfl

/-! The canonical form (log entry 2) through every write. -/

/-- If the memory was in canonical form, it still is. -/
def KeepsCanonical (s t : State) : Prop := s.mem.wf = true → t.mem.wf = true

theorem KeepsCanonical.trans {s t u : State} (h : KeepsCanonical s t) (h' : KeepsCanonical t u) : KeepsCanonical s u :=
  h' ∘ h

theorem KeepsCanonical.of_mem_eq {s t : State} (h : t.mem = s.mem) : KeepsCanonical s t := fun hwf => h ▸ hwf

/-- An address of the machine is below 65536, so a stored byte finds its place. -/
theorem poke_keepsCanonical (a : Addr) (v : Byte) (s : State) : KeepsCanonical s (s.poke a v) :=
  Memory.wf_write a.isLt

theorem memWrite_keepsCanonical (a : Addr) (v : Byte) (s : State) : KeepsCanonical s (memWrite a v s) := by
  obtain ⟨-, h⟩ | ⟨-, h⟩ := memWrite_cases a v s
  · rw [h]; exact poke_keepsCanonical a v s
  · exact .of_mem_eq h.mem_eq

theorem push8_keepsCanonical (v : Byte) (s : State) : KeepsCanonical s (push8 v s) :=
  memWrite_keepsCanonical (stackAddr s.sp) v s

theorem push16_keepsCanonical (w : Addr) (s : State) : KeepsCanonical s (push16 w s) :=
  (push8_keepsCanonical (hi8 w) s).trans (push8_keepsCanonical (lo8 w) _)

theorem writeRef_keepsCanonical (r : Ref) (v : Byte) (s : State) : KeepsCanonical s (writeRef r v s) := by
  cases r with
  | acc | imm _ => exact .of_mem_eq rfl
  | mem a => exact memWrite_keepsCanonical a v (s.addCyc 1)

theorem writeOperand_keepsCanonical (m : Operand) (v : Byte) (s : State) : KeepsCanonical s (writeOperand m v s) := by
  rw [writeOperand, resolve_eq]
  exact writeRef_keepsCanonical _ v (s.addCyc (pointerCycles m))

theorem modifyOperand_keepsCanonical (op : Byte → Flags → Outcome8) (m : Operand) (s : State) :
    KeepsCanonical s (modifyOperand op m s) := by
  have hread (f : Flags) : KeepsCanonical s ((readOperand m s).state.setFlags f) := .of_mem_eq (readOperand_mem m s)
  exact (hread _).trans (writeRef_keepsCanonical _ _ _)

theorem exec_keepsCanonical {i : Instr} {s t : State} (h : exec i s = .next t) : KeepsCanonical s t := by
  cases hi : stores i with
  | false => exact .of_mem_eq (exec_mem_of_not_stores h hi)
  | true =>
    cases i with
    | sta m | stx m | sty m => obtain ⟨-, rfl⟩ := whenForm_next.mp h; exact writeOperand_keepsCanonical m _ s
    | inc m | dec m | asl m | lsr m | rol m | ror m =>
      obtain ⟨-, rfl⟩ := whenForm_next.mp h; exact modifyOperand_keepsCanonical _ m s
    | pha | php => cases h; exact push8_keepsCanonical _ s
    | jsr w => cases h; exact push16_keepsCanonical _ s
    | _ => cases hi

/-! The Tick around the instruction. -/

theorem service_keepsCanonical (k : IntKind) (s : State) : KeepsCanonical s (service k s) := by
  rw [service_eq]
  cases k with
  | reset => exact .of_mem_eq rfl
  | nmi | irq | brk => exact (push16_keepsCanonical s.pc s).trans (push8_keepsCanonical s.flags.pack _)

theorem beginTick_keepsCanonical (s : State) : KeepsCanonical s (beginTick s) := by
  cases h : s.pending with
  | none => rw [beginTick_of_none h]; exact .of_mem_eq rfl
  | some k => rw [beginTick_of_some h]; exact service_keepsCanonical k { s with cyc := 0 }

theorem fetchInstr_mem (s : State) : (fetchInstr s).state.mem = s.mem := by
  obtain ⟨_, _, _, -, h⟩ := fetchInstr_only s
  exact h.mem_eq

theorem stepInstr_keepsCanonical {s t : State} (h : stepInstr s = .next t) : KeepsCanonical s t := by
  obtain ⟨u, hu, rfl⟩ := stepInstr_next.mp h
  have hexec : KeepsCanonical _ u := exec_keepsCanonical hu
  exact (KeepsCanonical.of_mem_eq (fetchInstr_mem s)).trans hexec

theorem endOfStep_mem (s : State) : (hostEvents (endTick s)).mem = s.mem := by
  obtain ⟨_, hhost⟩ := hostEvents_only (endTick s)
  obtain ⟨_, _, hend⟩ := endTick_only s
  rw [hhost, hend]

/-- Settles O10: every write of a Tick goes through `poke`, the frame of the service included. -/
theorem memoryStaysCanonical : Obligations.MemoryStaysCanonical := by
  intro s t hwf h
  obtain ⟨u, hu, rfl⟩ := step_next.mp h
  rw [endOfStep_mem]
  exact (beginTick_keepsCanonical s).trans (stepInstr_keepsCanonical hu) hwf

/-- Settles O56: such an instruction leaves the memory the same list. -/
theorem onlyStoringInstructionsChangeMemory : Obligations.OnlyStoringInstructionsChangeMemory := by
  intro i s t h hi a
  rw [State.peek, exec_mem_of_not_stores h hi]; rfl

end Sys2Proof.Machine

/-! SUPPORT for the statements about the bus, its handlers, the 16-bit read and the stack (R62 to R74, R222). -/

namespace Sys2Proof.Machine

/-! The dispatch of the bus (R62, R63). -/

theorem isBound_iff {addr : Addr} {s : State} : s.isBound addr = true ↔ hi8 addr = 0xFD ∧ lo8 addr ∈ s.cfg.bound := by
  simp [State.isBound]

theorem memRead_bound {addr : Addr} {s : State} (h : s.isBound addr = true) : memRead addr s = deviceRead (lo8 addr) s :=
  if_pos h

theorem memWrite_bound {addr : Addr} {v : Byte} {s : State} (h : s.isBound addr = true) :
    memWrite addr v s = deviceWrite (lo8 addr) v s := if_pos h

/-- Settles O24: the two branches of an access, with `isBound` read as the rule of R62. -/
theorem busDispatchesTheRegisterPage : Obligations.BusDispatchesTheRegisterPage := by
  intro addr v s
  rw [← isBound_iff, Bool.not_eq_true]
  exact ⟨fun h => ⟨memRead_bound h, memWrite_bound h⟩, fun h => ⟨memRead_unbound h, memWrite_unbound h⟩⟩

/-- Settles O26: an access to an unbound offset is a `peek` or a `poke`. -/
theorem unboundOffsetIsStorage : Obligations.UnboundOffsetIsStorage := by
  intro o v s ho
  have hbound : s.isBound (join 0xFD o) = false := by
    rw [← Bool.not_eq_true, isBound_iff, lo8_join]
    exact fun h => ho h.2
  have hpeek (b : Addr) : (memWrite (join 0xFD o) v s).peek b = if b = join 0xFD o then v else s.peek b := by
    rw [memWrite_unbound hbound, State.poke_peek]
  have hcell : (memWrite (join 0xFD o) v s).peek (join 0xFD o) = v := by rw [hpeek, if_pos rfl]
  refine ⟨?_, hcell, fun b hb => by rw [hpeek, if_neg hb]⟩
  have hbound' : (memWrite (join 0xFD o) v s).isBound (join 0xFD o) = false := by
    rw [memWrite_unbound hbound, State.poke_isBound, hbound]
  rw [memRead_unbound hbound', hcell]

/-! What a handler does (R64), by what its script holds. -/

/-- The list of device events is an output, so the calls do not depend on it. -/
theorem signalAll_devEvents (ks : List IntKind) (s : State) (d : List DeviceEvent) :
    signalAll ks { s with devEvents := d } = { signalAll ks s with devEvents := d } := by
  obtain ⟨p, hp⟩ := signalAll_slot ks { s with devEvents := d }
  obtain ⟨q, hq⟩ := signalAll_slot ks s
  have hsame : p = q := by
    have halike : Alike { s with devEvents := d } s := rfl
    have hslot := (halike.congr (signalAll_ignoresTime ks)).pending_eq
    rwa [hp, hq] at hslot
  rw [hp, hq, hsame]

theorem signalRequests_env_devEvents (rs : List PeripheralRequest) (s : State) (e : Environment) (d : List DeviceEvent) :
    signalRequests rs { s with env := e, devEvents := d } =
      { signalAll (rs.map PeripheralRequest.kind) s with env := e, devEvents := d } :=
  (signalAll_env _ { s with devEvents := d } e).trans (by rw [signalAll_devEvents])

section
variable {s : State}

theorem deviceRead_of_cons {r : DeviceReply} {rest : List DeviceReply} (h : s.env.reads = r :: rest) (o : Byte) :
    deviceRead o s =
      { value := r.value
        state :=
          { signalAll (r.calls.map PeripheralRequest.kind) s with
            env := { s.env with reads := rest }, devEvents := s.devEvents ++ [.read o r.value] } } := by
  simp only [deviceRead, h, signalRequests_env_devEvents]

theorem deviceRead_of_nil (h : s.env.reads = []) (o : Byte) :
    deviceRead o s =
      { value := Config.freeDeviceByte s.draws
        state :=
          { s with
            draws := s.draws + 1, devEvents := s.devEvents ++ [.read o (Config.freeDeviceByte s.draws)] } } := by
  simp only [deviceRead, h]

theorem deviceWrite_of_cons {calls : List PeripheralRequest} {rest : List (List PeripheralRequest)}
    (h : s.env.writes = calls :: rest) (o v : Byte) :
    deviceWrite o v s =
      { signalAll (calls.map PeripheralRequest.kind) s with
        env := { s.env with writes := rest }, devEvents := s.devEvents ++ [.write o v] } := by
  simp only [deviceWrite, h, signalRequests_env_devEvents]

theorem deviceWrite_of_nil (h : s.env.writes = []) (o v : Byte) :
    deviceWrite o v s = { s with devEvents := s.devEvents ++ [.write o v] } := by
  simp only [deviceWrite, h]

end

theorem signalAll_draws (ks : List IntKind) (s : State) : (signalAll ks s).draws = s.draws := by
  obtain ⟨_, h⟩ := signalAll_slot ks s
  rw [h]

theorem deviceRead_devEvents (o : Byte) (s : State) :
    (deviceRead o s).state.devEvents = s.devEvents ++ [.read o (deviceRead o s).value] := by
  cases h : s.env.reads with
  | nil => rw [deviceRead_of_nil h]
  | cons r rest => rw [deviceRead_of_cons h]

theorem deviceWrite_devEvents (o v : Byte) (s : State) :
    (deviceWrite o v s).devEvents = s.devEvents ++ [.write o v] := by
  cases h : s.env.writes with
  | nil => rw [deviceWrite_of_nil h]
  | cons calls rest => rw [deviceWrite_of_cons h]

theorem deviceWrite_draws (o v : Byte) (s : State) : (deviceWrite o v s).draws = s.draws := by
  cases h : s.env.writes with
  | nil => rw [deviceWrite_of_nil h]
  | cons calls rest => rw [deviceWrite_of_cons h]; exact signalAll_draws _ s

/-- No handler reaches the CPU, its counters or MEM (R64). -/
theorem HandlersOnly.frame {s t : State} (h : HandlersOnly s t) :
    t.a = s.a ∧ t.x = s.x ∧ t.y = s.y ∧ t.sp = s.sp ∧ t.pc = s.pc ∧ t.flags = s.flags ∧ t.cyc = s.cyc ∧
      (∀ a, t.peek a = s.peek a) ∧ KeepsTheRest s t := by
  obtain ⟨_, _, _, _, _, rfl⟩ := h
  exact ⟨rfl, rfl, rfl, rfl, rfl, rfl, rfl, fun _ => rfl, rfl, rfl, rfl, rfl, rfl⟩

/-- Settles O25, by whether the script still answers. -/
theorem handlersCallAndTouchNoCpuState : Obligations.HandlersCallAndTouchNoCpuState := by
  intro o v s
  refine ⟨?_, fun r rest h => ?_, fun h => ?_, fun calls rest h => ?_, fun h => ?_, deviceWrite_draws o v s,
    deviceRead_devEvents o s, deviceWrite_devEvents o v s, ?_⟩
  · cases h : s.env.reads with
    | nil => rw [deviceRead_of_nil h]
    | cons r rest => rw [deviceRead_of_cons h]
  · rw [deviceRead_of_cons h]; exact ⟨rfl, rfl, signalAll_draws _ s⟩
  · rw [deviceRead_of_nil h]; exact ⟨rfl, rfl, rfl⟩
  · rw [deviceWrite_of_cons h]; exact ⟨rfl, rfl⟩
  · rw [deviceWrite_of_nil h]; exact ⟨rfl, rfl⟩
  · rintro t (rfl | rfl)
    · exact (deviceRead_only o s).frame
    · exact (deviceWrite_only o v s).frame

/-! The 16-bit read (R67). -/

theorem lo8_toNat (w : Addr) : (lo8 w).toNat = w.toNat % 256 := by simp [lo8]

theorem lo8_add_one (w : Addr) : lo8 (w + 1) = lo8 w + 1 := by
  apply BitVec.eq_of_toNat_eq
  simp [lo8_toNat]

theorem and_0xFF (b : Byte) : b &&& 0xFF = b := BitVec.and_allOnes

/-- The page of one address with the offset of another, in the masks of R67. -/
theorem join_hi8_lo8_eq_or (a b : Addr) : join (hi8 a) (lo8 b) = (a &&& 0xFF00) ||| (b &&& 0x00FF) := by
  have hhigh : a &&& 0xFF00 = join (hi8 a) 0 :=
    calc a &&& 0xFF00 = join (hi8 a) (lo8 a) &&& join 0xFF 0 := by rw [join_hi8_lo8]; rfl
      _ = join (hi8 a &&& 0xFF) (lo8 a &&& 0) := BitVec.and_append
      _ = join (hi8 a) 0 := by rw [and_0xFF]; simp
  have hlow : b &&& 0x00FF = join 0 (lo8 b) :=
    calc b &&& 0x00FF = join (hi8 b) (lo8 b) &&& join 0 0xFF := by rw [join_hi8_lo8]; rfl
      _ = join (hi8 b &&& 0) (lo8 b &&& 0xFF) := BitVec.and_append
      _ = join 0 (lo8 b) := by rw [and_0xFF]; simp
  calc join (hi8 a) (lo8 b) = join (hi8 a ||| 0) (0 ||| lo8 b) := by simp
    _ = join (hi8 a) 0 ||| join 0 (lo8 b) := BitVec.or_append.symm
    _ = (a &&& 0xFF00) ||| (b &&& 0x00FF) := by rw [hhigh, hlow]

theorem secondAddr_eq (pageWrap : Bool) (addr : Addr) :
    secondAddr pageWrap addr =
      if pageWrap then (addr &&& 0xFF00) ||| ((addr + 1) &&& 0x00FF) else addr + 1 := by
  rw [secondAddr, ← lo8_add_one, join_hi8_lo8_eq_or]

/-- Settles O27: `secondAddr` is the address that R67 writes with masks. -/
theorem wordReadTakesTheLowByteFirst : Obligations.WordReadTakesTheLowByteFirst := by
  intro addr s second lo hi
  have hword : memReadWord addr s = { value := join hi.value lo.value, state := hi.state } := by
    rw [memReadWord, secondAddr_eq]
  rw [hword]
  exact ⟨join_toNat _ _, rfl⟩

/-! The 16-bit push (R72). -/

theorem stackAddr_pred_ne (p : Byte) : stackAddr (p - 1) ≠ stackAddr p := by
  rw [ne_eq, stackAddr_inj]
  bv_omega

/-- The two places of a 16-bit push, and the frame of every other cell. -/
theorem push16_peek (w : Addr) (s : State) :
    (push16 w s).peek (stackAddr s.sp) = hi8 w ∧ (push16 w s).peek (stackAddr (s.sp - 1)) = lo8 w ∧
      ∀ a, a ≠ stackAddr s.sp → a ≠ stackAddr (s.sp - 1) → (push16 w s).peek a = s.peek a := by
  have hpeek (a : Addr) : (push16 w s).peek a =
      if a = stackAddr (s.sp - 1) then lo8 w else if a = stackAddr s.sp then hi8 w else s.peek a := by
    rw [push16_eq, State.setSp_peek, State.poke_peek, State.poke_peek]
  refine ⟨?_, ?_, fun a hhi hlo => ?_⟩
  · rw [hpeek, if_neg (stackAddr_pred_ne s.sp).symm, if_pos rfl]
  · rw [hpeek, if_pos rfl]
  · rw [hpeek, if_neg hlo, if_neg hhi]

theorem push16_sp (w : Addr) (s : State) : (push16 w s).sp = s.sp - 1 - 1 := by rw [push16_eq]; rfl

/-- Settles O28: the pull counts SP back over the two places that the push wrote. -/
theorem stackRoundTrip : Obligations.StackRoundTrip := by
  intro w s
  obtain ⟨hhi, hlo, hframe⟩ := push16_peek w s
  have hlow : (push16 w s).sp + 1 = s.sp - 1 := by rw [push16_sp, BitVec.sub_add_cancel]
  have hhigh : (push16 w s).sp + 1 + 1 = s.sp := by rw [hlow, BitVec.sub_add_cancel]
  refine ⟨?_, ?_, hhi, hlo, hframe⟩
  · rw [pull16_eq, hhigh, hlow, hhi, hlo, join_hi8_lo8]
  · rw [pull16_eq]; exact hhigh

/-- Settles O47: JSR is a 16-bit push of PC - 1, two cycles and the new PC. -/
theorem jsrStacksItsLastByte : Obligations.JsrStacksItsLastByte := by
  intro w s
  obtain ⟨hhi, hlo, hframe⟩ := push16_peek (s.pc - 1) s
  obtain ⟨_, hpush⟩ := push16_only (s.pc - 1) s
  have hsp : s.sp - 1 - 1 = s.sp - 2 := by bv_omega
  refine ⟨_, rfl, rfl, (push16_sp _ s).trans hsp, ?_, hhi, hlo, hframe, ?_⟩
  · rw [hpush]; rfl
  · rw [hpush]; exact ⟨rfl, rfl, rfl, rfl, ⟨rfl, rfl, rfl, rfl, rfl⟩, rfl, rfl, rfl, rfl⟩

end Sys2Proof.Machine

/-! SUPPORT for the statements about stores and read-modify-writes (R77, R143 to R145, R179, R182, R204 to R207). -/

namespace Sys2Proof.Machine

/-! One write of the bus, and what accesses leave. -/

theorem memWrite_storedByte (addr : Addr) (v : Byte) (s : State) : StoredByte addr v s (memWrite addr v s) := by
  refine ⟨fun b hb => ?_, fun h => ?_, fun h => ?_⟩
  · obtain ⟨-, h⟩ | ⟨-, h⟩ := memWrite_cases addr v s
    · rw [h, State.poke_peek, if_neg hb]
    · exact h.peek b
  · rw [memWrite_unbound h, State.poke_peek, if_pos rfl]
    exact ⟨rfl, KeepsTheOutside.refl s⟩
  · rw [memWrite_bound h]
    exact ⟨(deviceWrite_only _ v s).peek addr, deviceWrite_devEvents _ v s⟩

theorem BusOnly.frame {s t : State} (h : BusOnly s t) :
    t.a = s.a ∧ t.x = s.x ∧ t.y = s.y ∧ t.sp = s.sp ∧ t.pc = s.pc ∧ t.flags = s.flags ∧ KeepsTheRest s t := by
  obtain ⟨_, _, _, _, _, _, _, rfl⟩ := h
  exact ⟨rfl, rfl, rfl, rfl, rfl, rfl, rfl, rfl, rfl, rfl, rfl⟩

/-! Stores. -/

/-- A store is one write of its register, behind the check of its form. -/
theorem exec_store {i : Instr} {m : Operand} {v : Byte} {s : State}
    (hi : (i = .sta m ∧ v = s.a) ∨ (i = .stx m ∧ v = s.x) ∨ (i = .sty m ∧ v = s.y)) :
    exec i s = whenForm i.wellFormed (writeOperand m v s) := by
  obtain ⟨rfl, rfl⟩ | ⟨rfl, rfl⟩ | ⟨rfl, rfl⟩ := hi <;> rfl

/-- Settles O31: the cycles are counted first, then the byte is written. -/
theorem storesWriteTheirRegister : Obligations.StoresWriteTheirRegister := by
  intro m s addr haddr i v hi hwf
  have hbus : BusOnly s (memWrite addr v (s.addCyc (pointerCycles m + 1))) :=
    (addCyc_busOnly s _).trans (memWrite_busOnly addr v _)
  obtain ⟨ha, hx, hy, hsp, hpc, hflags, hrest⟩ := hbus.frame
  refine ⟨_, ?_, memWrite_storedByte addr v (s.addCyc (pointerCycles m + 1)), ha, hx, hy, hsp, hpc, hflags,
    memWrite_cyc addr v _, hrest⟩
  rw [exec_store hi, hwf, writeOperand_mem v haddr]; rfl

/-! The operations of the shifts and rotates, in bits. -/

/-- The updater on a natural number: the ninth bit is the carry (R170). -/
theorem updateFlags_natCast (n : Nat) (f : Flags) :
    updateFlags (n : Int) selectCZS f =
      { value := BitVec.ofNat 8 n, flags := { withZS (BitVec.ofNat 8 n) f with c := n.testBit 8 } } := by
  have hvalue : truncated (n : Int) = BitVec.ofNat 8 n := BitVec.ofInt_natCast 8 n
  have hcarry : ninthBit (n : Int) = n.testBit 8 := by
    rw [ninthBit, BitVec.ofInt_natCast, BitVec.getLsbD_ofNat]; rfl
  simp only [updateFlags, selectCZS, hvalue, hcarry, withZS, getLsbD_seven, if_true]
  congr 2

/-- A byte doubled, with the carry below it: the low eight bits and the ninth (R204, R206). -/
theorem ofNat_double (v : Byte) (c : Bool) :
    BitVec.ofNat 8 (v.toNat * 2 + c.toNat) = v <<< 1 ||| (if c then (1 : Byte) else 0) := by
  revert v c; decide

theorem testBit_double (v : Byte) (c : Bool) : (v.toNat * 2 + c.toNat).testBit 8 = v.getLsbD 7 := by
  revert v c; decide

/-- A byte halved, with the carry above it (R207). -/
theorem ofNat_half (v : Byte) (c : Bool) :
    BitVec.ofNat 8 (c.toNat * 128 + v.toNat / 2) = (if c then (1 : Byte) else 0) <<< 7 ||| v >>> 1 := by
  revert v c; decide

theorem rotateLeft_eq (v : Byte) (f : Flags) :
    rotateLeft v f =
      { value := v <<< 1 ||| (if f.c then (1 : Byte) else 0)
        flags := { withZS (v <<< 1 ||| (if f.c then (1 : Byte) else 0)) f with c := v.getLsbD 7 } } := by
  rw [rotateLeft, updateFlags_natCast, ofNat_double, testBit_double]

theorem shiftLeft_eq (v : Byte) (f : Flags) :
    shiftLeft v f = { value := v <<< 1, flags := { withZS (v <<< 1) f with c := v.getLsbD 7 } } := by
  have hvalue : BitVec.ofNat 8 (v.toNat * 2) = v <<< 1 := (ofNat_double v false).trans BitVec.or_zero
  have hcarry : (v.toNat * 2).testBit 8 = v.getLsbD 7 := testBit_double v false
  rw [shiftLeft, updateFlags_natCast, hvalue, hcarry]

theorem rotateRight_eq (v : Byte) (f : Flags) :
    rotateRight v f =
      { value := (if f.c then (1 : Byte) else 0) <<< 7 ||| v >>> 1
        flags := { withZS ((if f.c then (1 : Byte) else 0) <<< 7 ||| v >>> 1) f with c := v.getLsbD 0 } } := by
  rw [rotateRight, ofNat_half, setZS_eq]; rfl

/-! Read-modify-writes. -/

/-- Each of the six is one operation on its operand, the one that `modified` writes in bits. -/
theorem exec_modifiedForm {i : Instr} {m : Operand} (h : modifiedForm i = some m) :
    ∃ op : Byte → Flags → Outcome8,
      (∀ s, exec i s = whenForm i.wellFormed (modifyOperand op m s)) ∧
      ∀ v f, modified i v f = some ((op v f).value, (op v f).flags) := by
  cases i with
  | inc _ => cases h; exact ⟨increment, fun _ => rfl, fun v f => by rw [increment_eq]; rfl⟩
  | dec _ => cases h; exact ⟨decrement, fun _ => rfl, fun v f => by rw [decrement_eq]; rfl⟩
  | asl _ => cases h; exact ⟨shiftLeft, fun _ => rfl, fun v f => by rw [shiftLeft_eq]; rfl⟩
  | lsr _ => cases h; exact ⟨shiftRight, fun _ => rfl, fun v f => by rw [shiftRight_eq]; rfl⟩
  | rol _ => cases h; exact ⟨rotateLeft, fun _ => rfl, fun v f => by rw [rotateLeft_eq]; rfl⟩
  | ror _ => cases h; exact ⟨rotateRight, fun _ => rfl, fun v f => by rw [rotateRight_eq]; rfl⟩
  | _ => cases h

section
variable {m : Operand} {s : State} {addr : Addr}

theorem operandValue_mem (h : effectiveAddr m s = some addr) :
    operandValue m s = memRead addr (s.addCyc (pointerCycles m + 1)) := by
  rw [operandValue, h]

theorem operandValue_bound_devEvents (h : effectiveAddr m s = some addr) (hbound : s.isBound addr = true) :
    (operandValue m s).state.devEvents = s.devEvents ++ [.read (lo8 addr) (operandValue m s).value] := by
  have hread : operandValue m s = deviceRead (lo8 addr) (s.addCyc (pointerCycles m + 1)) :=
    (operandValue_mem h).trans (memRead_bound hbound)
  rw [hread, deviceRead_devEvents]; rfl

/-- A write at the effective address after the operand's read, whatever flags and cycles come between. -/
theorem storedByte_after_operandValue {u : State} (h : effectiveAddr m s = some addr) (v : Byte)
    (hmem : u.mem = (operandValue m s).state.mem) (hcfg : u.cfg = (operandValue m s).state.cfg)
    (hdev : u.devEvents = (operandValue m s).state.devEvents) :
    (∀ b, b ≠ addr → (memWrite addr v u).peek b = s.peek b) ∧
      (s.isBound addr = false → (memWrite addr v u).peek addr = v) ∧
      (s.isBound addr = true → (memWrite addr v u).peek addr = s.peek addr ∧
        (memWrite addr v u).devEvents =
          s.devEvents ++ [.read (lo8 addr) (operandValue m s).value, .write (lo8 addr) v]) := by
  obtain ⟨n, hread⟩ := operandValue_only m s
  have hpeek (b : Addr) : u.peek b = s.peek b := by rw [State.peek, hmem]; exact hread.peek b
  have hisBound : u.isBound addr = s.isBound addr := by rw [State.isBound, hcfg]; exact hread.isBound addr
  obtain ⟨hframe, hstore, hdevice⟩ := memWrite_storedByte addr v u
  rw [hisBound] at hstore hdevice
  refine ⟨fun b hb => (hframe b hb).trans (hpeek b), fun hbound => (hstore hbound).1, fun hbound => ?_⟩
  obtain ⟨hcell, hevents⟩ := hdevice hbound
  refine ⟨hcell.trans (hpeek addr), ?_⟩
  rw [hevents, hdev, operandValue_bound_devEvents h hbound, List.append_assoc]; rfl

end

/-- Settles O43: the accumulator forms without the bus, the memory forms by the read and the write of `modifyOperand`. -/
theorem readModifyWriteChangesItsOperand : Obligations.ReadModifyWriteChangesItsOperand := by
  refine ⟨fun i s hwf hform => ?_, fun i m s addr hwf hform haddr => ?_⟩
  · obtain ⟨op, hexec, hmod⟩ := exec_modifiedForm hform
    refine ⟨_, _, hmod s.a s.flags, ?_⟩
    rw [hexec, hwf, modifyOperand_acc]; rfl
  · obtain ⟨op, hexec, hmod⟩ := exec_modifiedForm hform
    intro g
    have hnext : exec i s = .next (memWrite addr (op g.value s.flags).value
        { g.state with flags := (op g.value s.flags).flags, cyc := g.state.cyc + 1 }) := by
      rw [hexec, hwf, modifyOperand_mem haddr, ← operandValue_mem haddr]; rfl
    refine ⟨_, _, hmod g.value s.flags, hnext, fun t ht => ?_⟩
    obtain rfl := Host.Outcome.next.inj (hnext.symm.trans ht)
    exact storedByte_after_operandValue haddr _ rfl rfl rfl

end Sys2Proof.Machine

/-! SUPPORT for the statements about unrecognized bytes and the sample bytes (R96, R97, R259, R260). -/

namespace Sys2Proof.Machine

/-- Settles O4, by running the decoder on each sample. -/
theorem sampleBytesDecode : Obligations.SampleBytesDecode := ⟨rfl, rfl, rfl, rfl, rfl, rfl, rfl, rfl, rfl⟩

section
variable {op : Byte} {s : State}

/-- A byte in MEM at PC that RECOGNIZED does not hold is the whole code of an UNREC (R93, R259). -/
theorem codeAt_unrec (hop : op ∉ s.cfg.recognized) (hbound : s.isBound s.pc = false) (hpeek : s.peek s.pc = op) :
    s.codeAt (.unrec op) [op] := by
  have hsel : (Instr.unrec op).selectedBy s.cfg.recognized = true :=
    (Instr.selectedBy_of_opcode _ rfl).mpr (iff_of_false hop (by simp [Instr.isUnrec]))
  obtain ⟨bytes, henc, hdec⟩ := decodeOfEncodeIsTheInstruction _ _ rfl hsel
  obtain rfl : [op] = bytes := Option.some.inj henc
  refine ⟨hdec [], fun k hk => ?_⟩
  obtain rfl : k = 0 := Nat.lt_one_iff.mp hk
  have hpc : s.pc + BitVec.ofNat 16 0 = s.pc := BitVec.add_zero _
  rw [hpc, hpeek]
  exact ⟨hbound, rfl⟩

/-- The instruction part of a Tick where the code of an instruction stands at PC (R286, R325). -/
theorem stepInstr_of_codeAt {t : State} {i : Instr} {bytes : List Byte} (h : s.codeAt i bytes)
    (hexec : exec i (s.pastBytes bytes) = .next t) : stepInstr s = .next (t.addCyc (t.extraCostOf i)) := by
  have hfetch := fetchInstr_of_codeAt h
  exact stepInstr_next.mpr ⟨t, by rwa [hfetch], by rw [hfetch]⟩

end

/-- Settles O53: past the one byte of its code, the address that UNREC reports is PC again. -/
theorem unrecognizedByteOnlyEmitsItsEvent : Obligations.UnrecognizedByteOnlyEmitsItsEvent := by
  intro op s hop
  refine ⟨execUnrec_of_notMem hop, fun hbound hpeek => ?_⟩
  have hexec : exec (.unrec op) (s.pastBytes [op]) = .next (emitDiag op s.pc (s.pastBytes [op])) := by
    have haddr : (s.pastBytes [op]).pc - 1 = s.pc := BitVec.add_sub_cancel s.pc 1
    rw [← haddr]
    exact execUnrec_of_notMem hop
  exact stepInstr_of_codeAt (codeAt_unrec hop hbound hpeek) hexec

end Sys2Proof.Machine

/-! SUPPORT for the statements about addressing modes, jumps, branches and the class table of cycles (R119 to R131, R220, R221,
R226 to R234, R325). -/

namespace Sys2Proof

/-! Addresses in plain numbers. -/

theorem zext16_eq_ofNat (b : Byte) : zext16 b = BitVec.ofNat 16 b.toNat := by
  rw [← zext16_toNat, BitVec.ofNat_toNat, BitVec.setWidth_eq]

theorem zext16_add_eq_ofNat (z i : Byte) : zext16 (z + i) = BitVec.ofNat 16 ((z.toNat + i.toNat) % 256) := by
  rw [zext16_eq_ofNat, BitVec.toNat_add]

theorem ofNat_add_zext16 (n : Nat) (i : Byte) : BitVec.ofNat 16 n + zext16 i = BitVec.ofNat 16 ((n + i.toNat) % 65536) := by
  rw [zext16_eq_ofNat, ← BitVec.ofNat_add]
  exact BitVec.eq_of_toNat_eq (by simp)

theorem add_zext16_eq_ofNat (w : Addr) (i : Byte) : w + zext16 i = BitVec.ofNat 16 ((w.toNat + i.toNat) % 65536) := by
  rw [← ofNat_add_zext16, BitVec.ofNat_toNat, BitVec.setWidth_eq]

/-- The signed sum of R127, modulo 65536. -/
theorem add_sext16_eq_ofInt (w : Addr) (rel : Byte) : w + sext16 rel = BitVec.ofInt 16 (w.toNat + rel.toInt) := by
  rw [BitVec.ofInt_add, BitVec.ofInt_natCast, BitVec.ofNat_toNat, BitVec.setWidth_eq]; rfl

namespace Machine

theorem secondAddr_zext16_toNat (pageWrap : Bool) (b : Byte) :
    (secondAddr pageWrap (zext16 b)).toNat = if pageWrap then (b.toNat + 1) % 256 else b.toNat + 1 := by
  cases pageWrap with
  | true => simp [secondAddr, join_toNat, lo8_toNat]
  | false => simp [secondAddr]; omega

/-- The word MEM holds at a zero-page place, low byte first (R67, R125, R126). -/
theorem word_zext16 (b : Byte) (s : State) :
    s.word (zext16 b) = BitVec.ofNat 16 ((s.mem.read b.toNat).toNat +
      (s.mem.read (if s.cfg.wordReadPageWrap then (b.toNat + 1) % 256 else b.toNat + 1)).toNat * 256) := by
  rw [← secondAddr_zext16_toNat, Nat.add_comm, ← zext16_toNat b, ← State.peek, ← State.peek, ← join_toNat,
    BitVec.ofNat_toNat, BitVec.setWidth_eq, State.word]

/-! The resolver (R119 to R126). -/

theorem resolve_ref_of_effectiveAddr {m : Operand} {s : State} {addr : Addr} (h : effectiveAddr m s = some addr) :
    (resolve m s).ref = .mem addr := by
  simp only [resolve_eq, refOf, h]

/-- Settles O29: the resolver's address is `effectiveAddr`, which is here put in numbers form by form. -/
theorem resolverFindsTheEffectiveAddress : Obligations.ResolverFindsTheEffectiveAddress := by
  intro z w s pointer
  refine ⟨?zp, ?zpx, ?zpy, ?abs, ?abx, ?aby, ?izx, ?izy, fun m => by rw [resolve_eq]; rfl⟩ <;>
    refine resolve_ref_of_effectiveAddr (congrArg some ?_)
  case zp => exact zext16_eq_ofNat z
  case zpx => exact zext16_add_eq_ofNat z s.x
  case zpy => exact zext16_add_eq_ofNat z s.y
  case abs => rfl
  case abx => exact add_zext16_eq_ofNat w s.x
  case aby => exact add_zext16_eq_ofNat w s.y
  case izx => rw [word_zext16, BitVec.toNat_add]
  case izy => rw [word_zext16, ofNat_add_zext16]

/-! Jumps and branches. -/

/-- Settles O46: where neither byte of the pointer is bound, its word is read from MEM. -/
theorem jumpsLoadThePc : Obligations.JumpsLoadThePc := by
  refine fun w s => ⟨rfl, rfl, fun hlo hhi => ?_⟩
  have hword := memReadWord_unbound hlo hhi
  exact congrArg (fun p : GotWord => Host.Outcome.next ((p.state.addCyc 2).setPc p.value)) hword

/-- The common branch rule (R226) with its target in signed numbers. -/
theorem branch_eq (taken : Bool) (rel : Byte) (s : State) :
    branch taken rel s =
      if taken then { s with pc := BitVec.ofInt 16 (s.pc.toNat + rel.toInt), cyc := s.cyc + 1 } else s := by
  rw [← add_sext16_eq_ofInt]; rfl

/-- Settles O51: each branch is the common rule on its own condition. -/
theorem branchesAddTheSignedOffset : Obligations.BranchesAddTheSignedOffset := by
  intro rel s
  have hnext (taken : Bool) := congrArg (Host.Outcome.next (φ := Fault) (ρ := Refusal)) (branch_eq taken rel s)
  exact ⟨hnext _, hnext _, hnext _, hnext _, hnext _, hnext _, hnext _, hnext _⟩

/-! The cycles of an instruction that stands at PC (R325). -/

section
variable {s : State} {i : Instr} {op : Byte} {rest : List Byte}

/-- The code at PC is an instruction's that RECOGNIZED selects, and begins with its opcode. -/
theorem codeAt_instr (h : s.codeAt i (op :: rest)) :
    i.wellFormed = true ∧ i.selectedBy s.cfg.recognized = true ∧ i.opcode = some op := by
  obtain ⟨hdec, -⟩ := h
  obtain ⟨hwf, hsel, code, henc, hcode⟩ := everyDecodingIsAnEncoding _ _ _ _ hdec
  rw [List.append_nil] at hcode
  subst hcode
  obtain ⟨op', hop, heq⟩ := Option.map_eq_some_iff.mp henc
  obtain ⟨rfl, -⟩ := List.cons.inj heq
  exact ⟨hwf, hsel, hop⟩

/-- The code at PC runs to completion: if it is UNREC's, RECOGNIZED does not hold its byte (R93). -/
theorem stepInstr_completes_of_codeAt (h : s.codeAt i (op :: rest)) : Completes (stepInstr s) := by
  obtain ⟨hwf, hsel, hop⟩ := codeAt_instr h
  have hrec : ∀ o, i = .unrec o → o ∉ (s.pastBytes (op :: rest)).cfg.recognized := by
    rintro o rfl hmem
    cases ((Instr.selectedBy_of_opcode _ rfl).mp hsel).mp hmem
  obtain ⟨t, ht⟩ := exec_completes hwf hrec
  exact ⟨_, stepInstr_of_codeAt h ht⟩

theorem extraCostOf_of_opcode (s : State) (h : i.opcode = some op) : s.extraCostOf i = extraCost s.cfg.extraCost op := by
  rw [State.extraCostOf, h]

end

/-- Settles O58: the fetch gives the instruction at PC, and no meaning changes EXTRA_COST before it is charged. -/
theorem instructionsCostTheirCycles : Obligations.InstructionsCostTheirCycles := by
  intro s i op rest hcode
  obtain ⟨t, ht⟩ := stepInstr_completes_of_codeAt hcode
  obtain ⟨-, -, hop⟩ := codeAt_instr hcode
  obtain ⟨-, hcyc⟩ := stepInstr_cyc ht
  rw [fetchInstr_of_codeAt hcode, extraCostOf_of_opcode t hop, (stepInstr_keepsTheTick ht).cfg] at hcyc
  exact ⟨t, ht, hcyc⟩

end Machine

end Sys2Proof

/-! SUPPORT for the statements about loads, transfers and the instructions on registers alone (R140 to R142, R146 to R151, R180, R181,
R183, R184). -/

namespace Sys2Proof.Machine

/-! A register takes a value, Z and S follow it (R171). -/

theorem State.loadA_eq (s : State) (v : Byte) : s.loadA v = { s with a := v, flags := withZS v s.flags } := by
  rw [State.loadA, setZS_eq]; rfl

theorem State.loadX_eq (s : State) (v : Byte) : s.loadX v = { s with x := v, flags := withZS v s.flags } := by
  rw [State.loadX, setZS_eq]; rfl

theorem State.loadY_eq (s : State) (v : Byte) : s.loadY v = { s with y := v, flags := withZS v s.flags } := by
  rw [State.loadY, setZS_eq]; rfl

/-- A handler that a load's read reaches cannot change the flags that the load then writes (R64). -/
theorem operandValue_flags (m : Operand) (s : State) : (operandValue m s).state.flags = s.flags := by
  rw [← readOperand_eq]; exact (readOperand_busOnly m s).flags_eq

/-- Settles O30: each load takes `readOperand`, which is `operandValue` and leaves the flags, into its register. -/
theorem loadsTakeTheOperand : Obligations.LoadsTakeTheOperand := by
  intro m s
  refine ⟨fun hwf => whenForm_next.mpr ⟨hwf, ?lda⟩, fun hwf => whenForm_next.mpr ⟨hwf, ?ldx⟩,
    fun hwf => whenForm_next.mpr ⟨hwf, ?ldy⟩⟩
  case lda => rw [readOperand_eq, State.loadA_eq, operandValue_flags]
  case ldx => rw [readOperand_eq, State.loadX_eq, operandValue_flags]
  case ldy => rw [readOperand_eq, State.loadY_eq, operandValue_flags]

/-- Settles O32: all but TXS load a register, the transfers with another register, the increments and decrements with the
neighbour of its own value. -/
theorem registerInstructionsWriteTheirRegister : Obligations.RegisterInstructionsWriteTheirRegister := by
  intro s
  have ha (v : Byte) := congrArg (Host.Outcome.next (φ := Fault) (ρ := Refusal)) (s.loadA_eq v)
  have hx (v : Byte) := congrArg (Host.Outcome.next (φ := Fault) (ρ := Refusal)) (s.loadX_eq v)
  have hy (v : Byte) := congrArg (Host.Outcome.next (φ := Fault) (ρ := Refusal)) (s.loadY_eq v)
  exact ⟨hx s.a, hy s.a, ha s.x, ha s.y, hx s.sp, rfl, hx (s.x + 1), hy (s.y + 1), hx (s.x - 1), hy (s.y - 1)⟩

end Sys2Proof.Machine

/-! SUPPORT for the statements about the flag updater, BCD, addition, subtraction and the compares (R170 to R178, R185). -/

namespace Sys2Proof.Machine

/-! The flag updater (R170). -/

theorem truncated_toNat_eq_emod (raw : Int) : ((truncated raw).toNat : Int) = raw % 256 := by
  rw [truncated, BitVec.toNat_ofInt]; omega

theorem truncated_eq_zero_iff (raw : Int) : truncated raw = 0 ↔ raw % 256 = 0 := by
  rw [← truncated_toNat_eq_emod, ← BitVec.toNat_inj]; exact Int.natCast_eq_zero.symm

/-- The ninth bit of a 9-bit result says that it lies outside a byte (R170). -/
theorem ninthBit_eq {raw : Int} (hlow : -256 ≤ raw) (hhigh : raw ≤ 511) : ninthBit raw = decide (255 < raw ∨ raw < 0) := by
  have hmsb : ninthBit raw = (BitVec.ofInt 9 raw).msb := (BitVec.msb_eq_getLsbD_last _).symm
  rw [hmsb, BitVec.msb_eq_decide, BitVec.toNat_ofInt, decide_eq_decide]
  omega

/-- Settles O36: the byte, its zero test, its bit 7 and the ninth bit, each in numbers. -/
theorem updaterDerivesCarryZeroSign : Obligations.UpdaterDerivesCarryZeroSign := by
  intro raw sel f hlow hhigh
  have hz : (truncated raw == 0) = decide (raw % 256 = 0) := decide_eq_decide.mpr (truncated_eq_zero_iff raw)
  have hs : (truncated raw).getLsbD 7 = decide (128 ≤ raw % 256) := by
    rw [getLsbD_seven, ← truncated_toNat_eq_emod]; norm_cast
  refine ⟨truncated_toNat_eq_emod raw, ?_⟩
  obtain ⟨select, z, s⟩ := sel
  cases select <;> simp only [updateFlags, ninthBit_eq hlow hhigh, hz, hs, decide_not]

/-- On a subtraction's result, which is at most 255, NC is "not negative" (R170, R173, R176). -/
theorem updateFlags_selectNCZS {raw : Int} (hlow : -256 ≤ raw) (hhigh : raw ≤ 255) (f : Flags) :
    updateFlags raw selectNCZS f =
      { value := truncated raw, flags := { withZS (truncated raw) f with c := decide (0 ≤ raw) } } := by
  have hc : (!ninthBit raw) = decide (0 ≤ raw) := by
    rw [ninthBit_eq hlow (by omega), ← decide_not, decide_eq_decide]; omega
  simp only [updateFlags, selectNCZS, withZS, getLsbD_seven, if_true, hc]
  congr 2

/-! BCD (R174). -/

theorem toNat_highNibble (b : Byte) : (b >>> 4).toNat = b.toNat / 16 := by
  rw [BitVec.toNat_ushiftRight, Nat.shiftRight_eq_div_pow]

theorem toNat_lowNibble (b : Byte) : (b &&& 0x0F).toNat = b.toNat % 16 :=
  (BitVec.toNat_and b 0x0F).trans (Nat.and_two_pow_sub_one_eq_mod b.toNat 4)

theorem validBCD_iff (b : Byte) : validBCD b = true ↔ b.toNat / 16 ≤ 9 ∧ b.toNat % 16 ≤ 9 := by simp [validBCD]

theorem toBCD_toNat {n : Nat} (h : n < 100) : (toBCD n).toNat = n / 10 * 16 + n % 10 := by
  rw [toBCD, BitVec.toNat_ofNat]; omega

theorem validBCD_toBCD {n : Nat} (h : n < 100) : validBCD (toBCD n) = true := by
  rw [validBCD_iff, toBCD_toNat h]; omega

theorem fromBCD_toBCD {n : Nat} (h : n < 100) : fromBCD (toBCD n) = n := by
  rw [fromBCD, toBCD_toNat h]; omega

theorem fromBCD_lt {b : Byte} (h : validBCD b = true) : fromBCD b < 100 := by
  rw [validBCD_iff] at h; rw [fromBCD]; omega

theorem toBCD_fromBCD {b : Byte} (h : validBCD b = true) : toBCD (fromBCD b) = b := by
  apply BitVec.eq_of_toNat_eq
  rw [toBCD_toNat (fromBCD_lt h), fromBCD]
  rw [validBCD_iff] at h
  omega

/-- Settles O37: the nibbles are the quotient and the remainder by 16, the digits those by 10. -/
theorem bcdDecodesAndEncodes : Obligations.BcdDecodesAndEncodes := by
  refine ⟨fun b => ?_, fun b => ?_, fun b => toBCD_fromBCD, fun n hn => ⟨validBCD_toBCD hn, fromBCD_toBCD hn⟩⟩
  · rw [toNat_highNibble, toNat_lowNibble, fromBCD]
  · rw [toNat_highNibble, toNat_lowNibble, validBCD_iff]

/-! Signed overflow (R185). -/

theorem and_0x80_bne_zero (v : Byte) : (v &&& 0x80#8 != 0) = v.msb := by revert v; decide

/-- The overflow formula compares the signs of both operands with the sign of the result. -/
theorem overflow_eq_msb (a m r : Byte) : overflow a m r = ((a.msb ^^ r.msb) && (m.msb ^^ r.msb)) := by
  rw [overflow, and_0x80_bne_zero, BitVec.msb_and, BitVec.msb_xor, BitVec.msb_xor]

/-- The formula's V is 1 exactly when the signed sum with the carry leaves the byte's signed range. -/
theorem overflow_sum (a m : Byte) (c : Bool) :
    overflow a m (BitVec.ofNat 8 (a.toNat + m.toNat + c.toNat)) =
      decide (a.toInt + m.toInt + c.toNat < -128 ∨ 127 < a.toInt + m.toInt + c.toNat) := by
  have hc : c.toNat ≤ 1 := Bool.toNat_le c
  rw [overflow_eq_msb, Bool.eq_iff_iff]
  simp only [BitVec.msb_eq_decide, BitVec.toInt_eq_toNat_cond, BitVec.toNat_ofNat, Bool.and_eq_true, bne_iff_ne, ne_eq,
    decide_eq_decide, decide_eq_true_eq]
  split_ifs <;> omega

/-! Sums and differences (R172, R173). -/

/-- Binary addition, in unsigned and signed numbers. -/
theorem addBinary_eq (a m : Byte) (f : Flags) :
    let sum : Nat := a.toNat + m.toNat + f.c.toNat
    let signed : Int := a.toInt + m.toInt + f.c.toNat
    addBinary a m f =
      { value := BitVec.ofNat 8 sum
        flags :=
          { withZS (BitVec.ofNat 8 sum) f with c := decide (256 ≤ sum), v := decide (signed < -128 ∨ 127 < signed) } } := by
  intro sum signed
  have hlt : sum < 512 := by have := Bool.toNat_le f.c; omega
  have hraw : (a.toNat + m.toNat + f.c.toNat : Int) = (sum : Nat) := by push_cast [sum]; rfl
  have hcarry : sum.testBit 8 = decide (256 ≤ sum) := by
    rw [Nat.testBit_eq_decide_div_mod_eq, decide_eq_decide]; omega
  have hvalue : truncated (sum : Nat) = BitVec.ofNat 8 sum := BitVec.ofInt_natCast 8 sum
  rw [addBinary, hraw, updateFlags_natCast, hvalue, hcarry, overflow_sum]
  rfl

theorem toInt_complement (m : Byte) : (~~~m).toInt = -1 - m.toInt := by
  rw [BitVec.toInt_eq_toNat_cond, BitVec.toInt_eq_toNat_cond, BitVec.toNat_not]
  split_ifs <;> omega

/-- A subtraction is the addition of the complement (R173): the same byte, up to a ninth bit. -/
theorem truncated_difference (a m : Byte) (c : Bool) :
    truncated ((a.toNat : Int) - m.toNat - (1 - c.toNat)) = BitVec.ofNat 8 (a.toNat + (~~~m).toNat + c.toNat) := by
  apply BitVec.eq_of_toNat_eq
  rw [truncated, BitVec.toNat_ofInt, BitVec.toNat_ofNat, BitVec.toNat_not]
  omega

/-- Binary subtraction, in unsigned and signed numbers. -/
theorem subBinary_eq (a m : Byte) (f : Flags) :
    let difference : Int := (a.toNat : Int) - m.toNat - (1 - f.c.toNat)
    let signed : Int := a.toInt - m.toInt - (1 - f.c.toNat)
    subBinary a m f =
      { value := BitVec.ofInt 8 difference
        flags :=
          { withZS (BitVec.ofInt 8 difference) f with
            c := decide (0 ≤ difference), v := decide (signed < -128 ∨ 127 < signed) } } := by
  intro difference signed
  have hc := Bool.toNat_le f.c
  have hsigned : a.toInt + (~~~m).toInt + f.c.toNat = signed := by rw [toInt_complement]; omega
  rw [subBinary, updateFlags_selectNCZS (by omega) (by omega), truncated_difference a m f.c, overflow_sum, hsigned,
    ← truncated_difference]
  rfl

theorem addDecimal_eq (a m : Byte) (f : Flags) :
    let sum : Nat := fromBCD a + fromBCD m + f.c.toNat
    addDecimal a m f =
      { value := toBCD (sum % 100), flags := { withZS (toBCD (sum % 100)) f with c := decide (100 ≤ sum) } } :=
  setZS_eq _ _

theorem subDecimal_eq (a m : Byte) (f : Flags) :
    let difference : Int := (fromBCD a : Int) - fromBCD m - (1 - f.c.toNat)
    let result : Byte := toBCD (difference % 100).toNat
    subDecimal a m f = { value := result, flags := { withZS result f with c := decide (0 ≤ difference) } } :=
  setZS_eq _ _

/-- Subtraction of bytes sets the flags of a compare (R176 to R178). -/
theorem compareFlags_eq (r m : Byte) (f : Flags) :
    compareFlags r m f =
      { f with c := decide (m.toNat ≤ r.toNat), z := decide (r = m), s := decide (128 ≤ (r - m).toNat) } := by
  have hvalue : truncated ((r.toNat : Int) - m.toNat) = r - m := by
    apply BitVec.eq_of_toNat_eq
    rw [truncated, BitVec.toNat_ofInt, BitVec.toNat_sub]
    omega
  have hz : decide (r - m = 0) = decide (r = m) := decide_eq_decide.mpr sub_eq_zero
  have hc : decide (0 ≤ (r.toNat : Int) - m.toNat) = decide (m.toNat ≤ r.toNat) := decide_eq_decide.mpr (by omega)
  rw [compareFlags, updateFlags_selectNCZS (by omega) (by omega), hvalue, hc, withZS, hz]

/-! The instructions: the operand is read first, then the result is taken. -/

theorem operandValue_registers (m : Operand) (s : State) :
    (operandValue m s).state.a = s.a ∧ (operandValue m s).state.x = s.x ∧ (operandValue m s).state.y = s.y := by
  obtain ⟨ha, hx, hy, -⟩ := (readOperand_busOnly m s).frame
  rw [readOperand_eq] at ha hx hy
  exact ⟨ha, hx, hy⟩

theorem exec_adc {m : Operand} (hwf : (Instr.adc m).wellFormed = true) (s : State) :
    exec (.adc m) s = .next (addWithCarry (operandValue m s).value (operandValue m s).state) :=
  whenForm_next.mpr ⟨hwf, by rw [readOperand_eq]⟩

theorem exec_sbc {m : Operand} (hwf : (Instr.sbc m).wellFormed = true) (s : State) :
    exec (.sbc m) s = .next (subWithBorrow (operandValue m s).value (operandValue m s).state) :=
  whenForm_next.mpr ⟨hwf, by rw [readOperand_eq]⟩

/-- Both addition and subtraction of invalid BCD take the free values (R175). -/
theorem State.takeDecimal_of_invalid {s : State} {m : Byte} (h : validBCD s.a = true → validBCD m = false)
    (valid : Outcome8) :
    s.takeDecimal m valid = { s.takeA (freeDecimal s.draws s.flags) with draws := s.draws + 1 } :=
  if_neg (by simpa using h)

theorem State.takeDecimal_of_valid {s : State} {m : Byte} (ha : validBCD s.a = true) (hm : validBCD m = true)
    (valid : Outcome8) : s.takeDecimal m valid = s.takeA valid :=
  if_pos (by rw [ha, hm]; rfl)

section

variable {s : State} {m : Byte}

theorem addWithCarry_binary (hd : s.flags.d = false) : addWithCarry m s = s.takeA (addBinary s.a m s.flags) :=
  if_neg (by simp [hd])

theorem subWithBorrow_binary (hd : s.flags.d = false) : subWithBorrow m s = s.takeA (subBinary s.a m s.flags) :=
  if_neg (by simp [hd])

theorem addWithCarry_decimal (hd : s.flags.d = true) :
    addWithCarry m s = s.takeDecimal m (addDecimal s.a m s.flags) := if_pos hd

theorem subWithBorrow_decimal (hd : s.flags.d = true) :
    subWithBorrow m s = s.takeDecimal m (subDecimal s.a m s.flags) := if_pos hd

end

/-- Settles O38: the operand is added to the A and the flags that its read leaves. -/
theorem adcAddsInBinary : Obligations.AdcAddsInBinary := by
  intro m s hwf hd
  obtain ⟨ha, -, -⟩ := operandValue_registers m s
  have hflags := operandValue_flags m s
  rw [exec_adc hwf, addWithCarry_binary (by rw [hflags, hd]), addBinary_eq, ha, hflags]
  rfl

/-- Settles O39, like addition. -/
theorem sbcSubtractsInBinary : Obligations.SbcSubtractsInBinary := by
  intro m s hwf hd
  obtain ⟨ha, -, -⟩ := operandValue_registers m s
  have hflags := operandValue_flags m s
  rw [exec_sbc hwf, subWithBorrow_binary (by rw [hflags, hd]), subBinary_eq, ha, hflags]
  rfl

/-- Settles O40: the BCD byte is the encoding of the sum or difference modulo 100. -/
theorem decimalModeAddsAndSubtractsDigits : Obligations.DecimalModeAddsAndSubtractsDigits := by
  intro m s hd g hva hvm sum difference
  obtain ⟨ha, -, -⟩ := operandValue_registers m s
  have hflags := operandValue_flags m s
  have hdg : g.state.flags.d = true := by rw [hflags, hd]
  have hvag : validBCD g.state.a = true := by rw [ha, hva]
  refine ⟨fun hwf => ?adc, fun hwf => ?sbc⟩
  case adc =>
    have hlt : sum % 100 < 100 := Nat.mod_lt _ (by decide)
    refine ⟨toBCD (sum % 100), validBCD_toBCD hlt, fromBCD_toBCD hlt, ?_⟩
    rw [exec_adc hwf, addWithCarry_decimal hdg, State.takeDecimal_of_valid hvag hvm, addDecimal_eq, ha, hflags]
    rfl
  case sbc =>
    have hlt : (difference % 100).toNat < 100 := by omega
    refine ⟨toBCD (difference % 100).toNat, validBCD_toBCD hlt, ?_, ?_⟩
    · rw [fromBCD_toBCD hlt]; omega
    · rw [exec_sbc hwf, subWithBorrow_decimal hdg, State.takeDecimal_of_valid hvag hvm, subDecimal_eq, ha, hflags]
      rfl

/-- Settles O41: with invalid BCD both instructions take the free values, whatever the sum or difference. -/
theorem invalidBcdLeavesFreeValues : Obligations.InvalidBcdLeavesFreeValues := by
  intro m s i hi hwf hd g hinvalid
  obtain ⟨ha, -, -⟩ := operandValue_registers m s
  have hflags := operandValue_flags m s
  have hdg : g.state.flags.d = true := by rw [hflags, hd]
  have hfree : validBCD g.state.a = true → validBCD g.value = false := by rwa [ha]
  obtain rfl | rfl := hi
  · rw [exec_adc hwf, addWithCarry_decimal hdg, State.takeDecimal_of_invalid hfree, hflags]; rfl
  · rw [exec_sbc hwf, subWithBorrow_decimal hdg, State.takeDecimal_of_invalid hfree, hflags]; rfl

/-- Settles O42: the three compares differ in their register alone. -/
theorem comparesSetCarryZeroSign : Obligations.ComparesSetCarryZeroSign := by
  intro m s
  obtain ⟨ha, hx, hy⟩ := operandValue_registers m s
  have hflags := operandValue_flags m s
  refine ⟨fun hwf => whenForm_next.mpr ⟨hwf, ?cmp⟩, fun hwf => whenForm_next.mpr ⟨hwf, ?cpx⟩,
    fun hwf => whenForm_next.mpr ⟨hwf, ?cpy⟩⟩
  case cmp => rw [readOperand_eq, ha, hflags, compareFlags_eq]; rfl
  case cpx => rw [readOperand_eq, hx, hflags, compareFlags_eq]; rfl
  case cpy => rw [readOperand_eq, hy, hflags, compareFlags_eq]; rfl

end Sys2Proof.Machine

/-! SUPPORT for the statements about the rotates and the logic instructions (R200 to R203, R206, R207). -/

namespace Sys2Proof.Machine

/-! A rotate is a rotation by one bit of the nine-bit word that C and the operand make (R206, R207). -/

/-- The operand with C above it. -/
def Outcome8.nineBits (o : Outcome8) : BitVec 9 := BitVec.cons o.flags.c o.value

theorem Outcome8.nineBits_inj {o p : Outcome8} : o.nineBits = p.nineBits ↔ o.value = p.value ∧ o.flags.c = p.flags.c := by
  refine ⟨fun h => ⟨?_, ?_⟩, fun ⟨hvalue, hc⟩ => by rw [nineBits, hvalue, hc]; rfl⟩
  · simpa [nineBits] using congrArg (BitVec.setWidth 8) h
  · simpa [nineBits] using congrArg BitVec.msb h

theorem cons_rotateLeft_one (c : Bool) (v : Byte) :
    (BitVec.cons c v).rotateLeft 1 = BitVec.cons (v.getLsbD 7) (v <<< 1 ||| (if c then (1 : Byte) else 0)) := by
  revert v c; decide

theorem cons_rotateRight_one (c : Bool) (v : Byte) :
    (BitVec.cons c v).rotateRight 1 = BitVec.cons (v.getLsbD 0) ((if c then (1 : Byte) else 0) <<< 7 ||| v >>> 1) := by
  revert v c; decide

theorem nineBits_rotateLeft :
    Function.Semiconj Outcome8.nineBits (fun o => rotateLeft o.value o.flags) (·.rotateLeft 1) := fun o =>
  (congrArg Outcome8.nineBits (rotateLeft_eq o.value o.flags)).trans (cons_rotateLeft_one o.flags.c o.value).symm

theorem nineBits_rotateRight :
    Function.Semiconj Outcome8.nineBits (fun o => rotateRight o.value o.flags) (·.rotateRight 1) := fun o =>
  (congrArg Outcome8.nineBits (rotateRight_eq o.value o.flags)).trans (cons_rotateRight_one o.flags.c o.value).symm

/-- After k steps to the left the top k bits have come in from below. -/
theorem getElem_iterate_rotateLeft_one (x : BitVec 9) {k i : Nat} (hk : k ≤ 9) (hi : i < 9) :
    ((·.rotateLeft 1)^[k] x)[i] = if h : i < k then x[9 - k + i] else x[i - k] := by
  induction k generalizing i with
  | zero => rfl
  | succ k ih =>
    rw [Function.iterate_succ_apply', BitVec.getElem_rotateLeft]
    grind

theorem iterate_rotateLeft_nine (x : BitVec 9) : (·.rotateLeft 1)^[9] x = x := by
  ext i hi
  rw [getElem_iterate_rotateLeft_one x le_rfl hi]; simp [hi]

theorem rotateRight_one_rotateLeft_one : Function.LeftInverse (α := BitVec 9) (·.rotateRight 1) (·.rotateLeft 1) := by
  intro x
  ext i hi
  simp only [BitVec.getElem_rotateLeft, BitVec.getElem_rotateRight]
  grind

/-- Nine steps to the right undo nine steps to the left, which change nothing. -/
theorem iterate_rotateRight_nine (x : BitVec 9) : (·.rotateRight 1)^[9] x = x := by
  have hundo : (·.rotateRight 1)^[9] ((·.rotateLeft 1)^[9] x) = x := rotateRight_one_rotateLeft_one.iterate 9 x
  rwa [iterate_rotateLeft_nine] at hundo

/-- Settles O44: on the nine bits the rotates are rotations, which nine steps bring back to the start. -/
theorem nineRotatesRestoreOperandAndCarry : Obligations.NineRotatesRestoreOperandAndCarry := by
  intro v f
  obtain ⟨hleft, hcleft⟩ := Outcome8.nineBits_inj.mp
    ((nineBits_rotateLeft.iterate_right 9 ⟨v, f⟩).trans (iterate_rotateLeft_nine _))
  obtain ⟨hright, hcright⟩ := Outcome8.nineBits_inj.mp
    ((nineBits_rotateRight.iterate_right 9 ⟨v, f⟩).trans (iterate_rotateRight_nine _))
  exact ⟨hleft, hcleft, hright, hcright⟩

/-! Logic: the operand is read first, then A and the flags are taken from the state that its read leaves. -/

/-- Bit 6 of a byte, as a comparison. -/
theorem getLsbD_six (v : Byte) : v.getLsbD 6 = decide (64 ≤ v.toNat % 128) := by revert v; decide

theorem bitTest_eq (a m : Byte) (f : Flags) :
    bitTest a m f =
      { f with z := decide (a &&& m = 0), s := decide (128 ≤ m.toNat), v := decide (64 ≤ m.toNat % 128) } := by
  rw [bitTest, getLsbD_seven, getLsbD_six]; rfl

/-- Settles O45: AND, ORA and EOR load their result into A, BIT writes its three flags alone. -/
theorem logicCombinesAWithTheOperand : Obligations.LogicCombinesAWithTheOperand := by
  intro m s
  obtain ⟨ha, -, -⟩ := operandValue_registers m s
  have hflags := operandValue_flags m s
  refine ⟨fun hwf => whenForm_next.mpr ⟨hwf, ?and⟩, fun hwf => whenForm_next.mpr ⟨hwf, ?ora⟩,
    fun hwf => whenForm_next.mpr ⟨hwf, ?eor⟩, fun hwf => whenForm_next.mpr ⟨hwf, ?bit⟩⟩
  case and => rw [readOperand_eq, State.loadA_eq, ha, hflags]
  case ora => rw [readOperand_eq, State.loadA_eq, ha, hflags]
  case eor => rw [readOperand_eq, State.loadA_eq, ha, hflags]
  case bit => rw [readOperand_eq, bitTest_eq, ha, hflags]; rfl

end Sys2Proof.Machine

/-! SUPPORT for the statements about BRK and the returns (R222 to R225, R275, R280). -/

namespace Sys2Proof.Machine

theorem bool_toNat_eq_ite (b : Bool) : (BitVec.ofNat 16 b.toNat : Addr) = if b then 1 else 0 := by cases b <;> rfl

/-- Settles O50: BRK's request overwrites the slot, and the skip is BRK_SKIP as a number. -/
theorem brkLatchesTheRequest : Obligations.BrkLatchesTheRequest := by
  intro s
  rw [bool_toNat_eq_ite]; rfl

/-- Settles O49: RTS counts SP back over the two places where JSR put PC - 1. -/
theorem rtsReturnsAfterTheJsr : Obligations.RtsReturnsAfterTheJsr := by
  intro w p s t u hjsr hrts
  obtain ⟨t', hjsr', -, hsp, -, hhi, hlo, -, ha, hx, hy, hflags, -, -⟩ := jsrStacksItsLastByte w s
  cases hjsr'.symm.trans hjsr
  obtain ⟨hrts', -⟩ := returnsPullThePc (t.setPc p)
  cases hrts'.symm.trans hrts
  have hhigh : t.sp + 2 = s.sp := by rw [hsp, BitVec.sub_add_cancel]
  have hlow : t.sp + 1 = s.sp - 1 := by rw [hsp]; bv_omega
  refine ⟨?_, hhigh, hflags, ha, hx, hy⟩
  simp only [State.setPc_sp, State.setPc_peek]
  rw [hhigh, hlow, hhi, hlo, join_hi8_lo8, BitVec.sub_add_cancel]

/-! What an entry leaves on the stack (R275, R278). -/

/-- The return trip of R32: the byte keeps six flags, B and R come back as 1. -/
theorem Flags.unpack_pack (f : Flags) : Flags.unpack f.pack = { f with b := true, r := true } := by
  obtain ⟨c, z, i, d, b, r, v, s⟩ := f
  revert c z i d b r v s; decide

section
variable {k : IntKind} (hk : k ≠ .reset) (s : State)
include hk

theorem service_sp : (service k s).sp = s.sp - 1 - 1 - 1 := by
  rw [service_eq, pushFrame_eq, if_neg hk]; rfl

theorem service_peek (a : Addr) :
    (service k s).peek a =
      if a = stackAddr (s.sp - 1 - 1) then s.flags.pack
      else if a = stackAddr (s.sp - 1) then lo8 s.pc
      else if a = stackAddr s.sp then hi8 s.pc
      else s.peek a := by
  have hframe : (service k s).peek a = (pushFrame k s).peek a := by rw [service_eq]; rfl
  rw [hframe, pushFrame_eq, if_neg hk, State.setSp_peek, State.poke_peek, State.poke_peek, State.poke_peek]

/-- The three places of the frame, from the bottom. -/
theorem service_stacks_frame :
    (service k s).peek (stackAddr (s.sp - 1 - 1)) = s.flags.pack ∧
      (service k s).peek (stackAddr (s.sp - 1)) = lo8 s.pc ∧ (service k s).peek (stackAddr s.sp) = hi8 s.pc := by
  have htwo : stackAddr s.sp ≠ stackAddr (s.sp - 1 - 1) := by rw [ne_eq, stackAddr_inj]; bv_omega
  refine ⟨?_, ?_, ?_⟩
  · rw [service_peek hk, if_pos rfl]
  · rw [service_peek hk, if_neg (stackAddr_pred_ne _).symm, if_pos rfl]
  · rw [service_peek hk, if_neg htwo, if_neg (stackAddr_pred_ne _).symm, if_pos rfl]

end

/-- An entry leaves A, X and Y. -/
theorem service_registers (k : IntKind) (s : State) :
    (service k s).a = s.a ∧ (service k s).x = s.x ∧ (service k s).y = s.y := by
  obtain ⟨_, _, hframe⟩ := pushFrame_only k s
  rw [service_eq, hframe]
  exact ⟨rfl, rfl, rfl⟩

/-- Settles O23: RTI pulls the three bytes of the frame, whose flags byte loses B and R alone. -/
theorem rtiUndoesTheEntry : Obligations.RtiUndoesTheEntry := by
  intro k s t hk hrti
  cases hrti
  obtain ⟨hbyte, hlo, hhi⟩ := service_stacks_frame hk s
  obtain ⟨ha, hx, hy⟩ := service_registers k s
  have h1 : (service k s).sp + 1 = s.sp - 1 - 1 := by rw [service_sp hk, BitVec.sub_add_cancel]
  have h2 : (service k s).sp + 1 + 1 = s.sp - 1 := by rw [h1, BitVec.sub_add_cancel]
  have h3 : (service k s).sp + 1 + 1 + 1 = s.sp := by rw [h2, BitVec.sub_add_cancel]
  rw [returnFromInterrupt_eq, h3, h2, h1, hbyte, hlo, hhi]
  exact ⟨join_hi8_lo8 s.pc, rfl, ha, hx, hy, Flags.unpack_pack s.flags⟩

end Sys2Proof.Machine

/-! SUPPORT for the statements about the flag instructions and NOP (R250 to R257). -/

namespace Sys2Proof.Machine

/-- Settles O52: each flag instruction is `setFlags` of the flags with one field replaced, which leaves every other field of the
state; NOP is the identity. -/
theorem flagInstructionsWriteOneFlag : Obligations.FlagInstructionsWriteOneFlag := by
  intro s
  have hset (f : Flags) : (.next (s.setFlags f) : Host.Outcome State Fault Refusal) = .next { s with flags := f } := rfl
  exact ⟨hset { s.flags with c := false }, hset { s.flags with c := true }, hset { s.flags with i := false },
    hset { s.flags with i := true }, hset { s.flags with d := false }, hset { s.flags with d := true },
    hset { s.flags with v := false }, rfl⟩

end Sys2Proof.Machine

/-! SUPPORT for the statements about requests and their service (R271, R274 to R278, R312). -/

namespace Sys2Proof.Machine

/-! Requests (R271, R274). -/

theorem signalInterrupt_of_ne_irq {k : IntKind} (hk : k ≠ .irq) (s : State) :
    signalInterrupt k s = { s with pending := some k } := by
  cases k with
  | irq => exact absurd rfl hk
  | reset | nmi | brk => rfl

/-- An IRQ is latched into an empty slot while I is 0, and leaves no trace otherwise. -/
theorem signalInterrupt_irq (s : State) :
    signalInterrupt .irq s = if s.flags.i = false ∧ s.pending = none then { s with pending := some .irq } else s := by
  cases hi : s.flags.i with
  | true => simp [signalInterrupt, hi]
  | false => cases hp : s.pending <;> simp [signalInterrupt, hi, hp]

theorem signalInterrupt_irq_of_blocked {s : State} (h : ¬(s.flags.i = false ∧ s.pending = none)) :
    signalInterrupt .irq s = s := by
  rw [signalInterrupt_irq, if_neg h]

/-- Settles O19: the IRQ is `signalInterrupt_irq`, whose condition the first clause contradicts. -/
theorem signalInterruptLatchesOrDrops : Obligations.SignalInterruptLatchesOrDrops := by
  refine fun s => ⟨fun h => signalInterrupt_irq_of_blocked ?_, fun h => ?_, rfl, rfl, rfl⟩
  · rintro ⟨hi, hp⟩
    exact h.elim (fun hi' => Bool.noConfusion (hi.symm.trans hi')) (fun hp' => hp' hp)
  · rw [signalInterrupt_irq, if_pos h]

theorem signalAll_append (ks js : List IntKind) (s : State) : signalAll (ks ++ js) s = signalAll js (signalAll ks s) := by
  induction ks generalizing s with
  | nil => rfl
  | cons k ks ih => exact ih (signalInterrupt k s)

/-- Where I is 1 or a request is pending, any number of IRQs leaves the state. -/
theorem signalAll_irqs_of_blocked {ks : List IntKind} {s : State} (hks : ∀ j ∈ ks, j = .irq)
    (h : ¬(s.flags.i = false ∧ s.pending = none)) : signalAll ks s = s := by
  induction ks with
  | nil => rfl
  | cons k ks ih =>
    obtain ⟨rfl, htail⟩ := List.forall_mem_cons.mp hks
    rw [signalAll, signalInterrupt_irq_of_blocked h, ih htail]

/-- One IRQ or more do what one does: once it is latched the slot is taken. -/
theorem signalAll_irqs {ks : List IntKind} (hne : ks ≠ []) (hks : ∀ j ∈ ks, j = .irq) (s : State) :
    signalAll ks s = signalInterrupt .irq s := by
  cases ks with
  | nil => exact absurd rfl hne
  | cons k ks =>
    obtain ⟨rfl, htail⟩ := List.forall_mem_cons.mp hks
    refine signalAll_irqs_of_blocked htail ?_
    rintro ⟨hi, hp⟩
    by_cases h : s.flags.i = false ∧ s.pending = none
    · rw [signalInterrupt_irq, if_pos h] at hp; cases hp
    · rw [signalInterrupt_irq_of_blocked h] at hi hp; exact h ⟨hi, hp⟩

/-- Settles O20: the last call that is no IRQ takes the slot, and the IRQs after it find it taken. -/
theorem lastUnmaskableRequestWins : Obligations.LastUnmaskableRequestWins := by
  intro s before after k hafter
  refine ⟨fun hk => ?_, fun hbefore hk => ?_⟩
  · obtain ⟨p, hp⟩ := signalAll_slot before s
    rw [signalAll_append, signalAll, signalInterrupt_of_ne_irq hk, hp]
    exact signalAll_irqs_of_blocked hafter nofun
  · rw [← signalInterrupt_irq]
    exact signalAll_irqs (List.append_ne_nil_of_right_ne_nil _ (List.cons_ne_nil _ _))
      (List.forall_mem_append.mpr ⟨hbefore, List.forall_mem_cons.mpr ⟨hk, hafter⟩⟩) s

/-- The slot after some calls depends on the flag I and the slot before them alone. -/
theorem signalAll_pending_congr {s t : State} (ks : List IntKind) (hi : t.flags.i = s.flags.i)
    (hp : t.pending = s.pending) : (signalAll ks t).pending = (signalAll ks s).pending := by
  induction ks generalizing s t with
  | nil => exact hp
  | cons k ks ih =>
    obtain ⟨p, hs⟩ := signalInterrupt_slot k s
    obtain ⟨q, ht⟩ := signalInterrupt_slot k t
    refine ih (by rw [hs, ht]; exact hi) ?_
    cases k with
    | irq =>
      rw [signalInterrupt_irq, signalInterrupt_irq, hi, hp]
      split_ifs
      · rfl
      · exact hp
    | reset | nmi | brk => rfl

theorem signalAll_keeps_env (ks : List IntKind) (s : State) : (signalAll ks s).env = s.env := by
  obtain ⟨p, hp⟩ := signalAll_slot ks s
  rw [hp]

/-! The service (R275 to R278). -/

/-- No vector stands at the end of a page, so WORD_READ_PAGE_WRAP does not matter to it (R67, R276). -/
theorem word_vector (k : IntKind) (s : State) :
    s.word (vector k) = join (s.peek (vector k + 1)) (s.peek (vector k)) := by
  have hsecond (wrap : Bool) : secondAddr wrap (vector k) = vector k + 1 := by cases k <;> cases wrap <;> rfl
  rw [State.word, hsecond]

/-- An entry as one update of the state; only the frame's SP and memory depend on the kind beyond the vector and the flags. -/
theorem service_only (k : IntKind) (s : State) :
    ∃ sp mem, service k s =
      { s with
        sp := sp, mem := mem, flags := s.flags.enter k, cyc := s.cyc + 3
        pc := join (s.peek (vector k + 1)) (s.peek (vector k)), pending := none } := by
  obtain ⟨sp, mem, hframe⟩ := pushFrame_only k s
  exact ⟨sp, mem, by rw [service_eq, hframe, word_vector]⟩

theorem Flags.enter_eq (k : IntKind) (f : Flags) :
    f.enter k = { f with i := true, b := f.b || decide (k = .brk), z := f.z || decide (k = .reset) } := by
  cases k <;> simp [Flags.enter]

/-- Settles O21: Reset has no frame. -/
theorem resetServicePushesNothing : Obligations.ResetServicePushesNothing := by
  intro s
  rw [service_eq, word_vector]; rfl

/-- The frame of NMI, IRQ and BRK, and nothing else on memory and SP (R275, R278). -/
theorem service_pushes_frame {k : IntKind} (hk : k ≠ .reset) (s : State) :
    (service k s).sp = s.sp - 3 ∧
      (service k s).peek (stackAddr s.sp) = hi8 s.pc ∧
      (service k s).peek (stackAddr (s.sp - 1)) = lo8 s.pc ∧
      (service k s).peek (stackAddr (s.sp - 2)) = s.flags.pack ∧
      ∀ a, a ≠ stackAddr s.sp → a ≠ stackAddr (s.sp - 1) → a ≠ stackAddr (s.sp - 2) →
        (service k s).peek a = s.peek a := by
  have htwo : s.sp - 2 = s.sp - 1 - 1 := by bv_omega
  have hthree : s.sp - 3 = s.sp - 1 - 1 - 1 := by bv_omega
  rw [htwo, hthree]
  obtain ⟨hflags, hlo, hhi⟩ := service_stacks_frame hk s
  refine ⟨service_sp hk s, hhi, hlo, hflags, fun a h0 h1 h2 => ?_⟩
  rw [service_peek hk, if_neg h2, if_neg h1, if_neg h0]

/-- Settles O22: memory and SP from the frame, every other field from `service_only`. -/
theorem serviceEntersTheHandler : Obligations.ServiceEntersTheHandler := by
  intro k s
  refine ⟨?_, fun hk => service_pushes_frame hk s, ?_⟩
  · rintro rfl
    rw [resetServicePushesNothing s]
    exact ⟨rfl, fun _ => rfl⟩
  · obtain ⟨_, _, hservice⟩ := service_only k s
    rw [hservice]
    refine ⟨Flags.enter_eq k s.flags, rfl, ?_, rfl, rfl, rfl, rfl, rfl, rfl, rfl, rfl, rfl, rfl, rfl, rfl⟩
    cases k <;> rfl

/-- Construction latches Reset and counts nothing (R45, R310). -/
theorem construct_pending {init : InitValues} {cfg : Config} {ps : List (Positive × Bool)} {env : Environment}
    {image : List Byte} {off : Nat} {s : State} (h : State.construct init cfg ps env image off = .next s) :
    s.pending = some .reset := by
  unfold State.construct at h
  split_ifs at h
  cases h; rfl

/-- Settles O18: the first Tick begins with the service of Reset, from a counter of 0. -/
theorem firstFetchIsAtTheResetVector : Obligations.FirstFetchIsAtTheResetVector := by
  intro init cfg ps env image off s h
  rw [beginTick_of_some (construct_pending h), resetServicePushesNothing]; rfl

end Sys2Proof.Machine

/-! SUPPORT for the statements about a whole Tick, the divisor helper and the accumulators (R285, R286, R290 to R296). -/

namespace Sys2Proof.Machine

/-- Settles O6: the fetch gives the instruction at PC, which completes. -/
theorem stepRunsTheDecodedInstruction : Obligations.StepRunsTheDecodedInstruction := by
  intro s i bytes hcode
  cases bytes with
  | nil => obtain ⟨hdec, -⟩ := hcode; cases hdec
  | cons op rest =>
    obtain ⟨u, hu⟩ := stepInstr_completes_of_codeAt hcode
    obtain ⟨t, hexec, rfl⟩ := stepInstr_next.mp hu
    rw [fetchInstr_of_codeAt hcode] at hexec hu
    exact ⟨t, hexec, step_next.mpr ⟨_, hu, rfl⟩⟩

/-! The divisor helper (R291). -/

theorem cross_of_le {p : Peripheral} {delta : Nat} (h : p.divisor.val ≤ p.acc + delta) :
    cross p delta = { peripheral := { p with acc := p.acc + delta - p.divisor.val }, returned := true } := if_pos h

theorem cross_of_lt {p : Peripheral} {delta : Nat} (h : p.acc + delta < p.divisor.val) :
    cross p delta = { peripheral := { p with acc := p.acc + delta }, returned := false } := if_neg (Nat.not_le.mpr h)

/-- Settles O59, by whether the divisor is reached. -/
theorem divisorHelperCarriesTheRemainder : Obligations.DivisorHelperCarriesTheRemainder := by
  intro p delta
  have hzero (hlt : p.acc < p.divisor.val) : (cross p 0).peripheral = p ∧ (cross p 0).returned = false := by
    rw [cross_of_lt (delta := 0) hlt]; exact ⟨rfl, rfl⟩
  rcases Nat.lt_or_ge (p.acc + delta) p.divisor.val with hlt | hle
  · rw [cross_of_lt hlt]
    exact ⟨iff_of_false nofun (Nat.not_le.mpr hlt), rfl, rfl, rfl, hzero⟩
  · rw [cross_of_le hle]
    exact ⟨iff_of_true rfl hle, Nat.sub_add_cancel hle, rfl, rfl, hzero⟩

/-- One subtraction is enough while the delta is at most the divisor (R292). -/
theorem tickPeripheral_acc_lt {p : Peripheral} {delta : Nat} (hdelta : delta ≤ p.divisor.val)
    (hacc : p.acc < p.divisor.val) : (tickPeripheral delta p).peripheral.acc < p.divisor.val := by
  unfold tickPeripheral
  split_ifs
  · rcases Nat.lt_or_ge (p.acc + delta) p.divisor.val with hlt | hle
    · rw [cross_of_lt hlt]; exact hlt
    · rw [cross_of_le hle]
      exact (Nat.sub_lt_iff_lt_add hle).mpr (Nat.add_lt_add_of_lt_of_le hacc hdelta)
  · exact hacc

/-- Settles O13: a Tick's total is at most 8, and each peripheral is told it once. -/
theorem accumulatorsStayBelowDivisors : Obligations.AccumulatorsStayBelowDivisors := by
  rintro s t ⟨hextra, hacc⟩ h
  obtain ⟨-, hmax⟩ := tickCountsOneToEightCycles s t hextra h
  obtain ⟨u, hu, rfl⟩ := step_next.mp h
  obtain ⟨hper, -, -, hcfg, -⟩ := (beginTick_keepsTheTick s).trans (stepInstr_keepsTheTick hu)
  obtain ⟨-, hendCyc, hendCfg, -, hendPer⟩ := endOfStep_effect u
  rw [hendCyc] at hmax
  rw [hendCfg, hcfg, hendPer, hper]
  refine ⟨hextra, fun p hp => ?_⟩
  obtain ⟨q, hq, rfl⟩ := List.mem_map.mp hp
  obtain ⟨hdivisor, hlt⟩ := hacc q hq
  obtain ⟨hkept, -⟩ := Prod.mk.inj (tickPeripheral_registration u.cyc q)
  rw [hkept]
  exact ⟨hdivisor, tickPeripheral_acc_lt (hmax.trans hdivisor) hlt⟩

/-! The end of a Tick (R285, R290, R296). -/

theorem tickPeripheral_eq (delta : Nat) (p : Peripheral) :
    (tickPeripheral delta p).peripheral = (if p.usesHelper then (cross p delta).peripheral else p) ∧
      (tickPeripheral delta p).returned = (p.usesHelper && (cross p delta).returned) := by
  unfold tickPeripheral
  cases p.usesHelper <;> exact ⟨rfl, rfl⟩

/-- With its script at an end the environment makes no call in the tick phase. -/
theorem endTick_pending_of_nil {s : State} (h : s.env.ticks = []) : (endTick s).pending = s.pending := by
  simp [endTick, pace, tickPhase, h]

/-- The calls of the tick phase see the flags and the slot that the instruction left. -/
theorem endTick_pending_of_cons {s : State} {calls : List PeripheralRequest} {rest : List (List PeripheralRequest)}
    (h : s.env.ticks = calls :: rest) :
    (endTick s).pending = (signalAll (calls.map PeripheralRequest.kind) s).pending ∧ (endTick s).env.ticks = rest := by
  simp only [endTick, pace, tickPhase, h, signalRequests]
  refine ⟨signalAll_pending_congr _ rfl rfl, ?_⟩
  rw [signalAll_keeps_env]

/-- Settles O60: requests by the script's next entry, every other field from `endTick_only`. -/
theorem endOfTickReportsTheTotal : Obligations.EndOfTickReportsTheTotal := by
  intro s
  have hpending := endTick_pending_of_nil (s := s)
  have hcalls (calls rest) := endTick_pending_of_cons (s := s) (calls := calls) (rest := rest)
  obtain ⟨_, _, hend⟩ := endTick_only s
  refine ⟨?_, ?_, ?_, hpending, hcalls, ?_⟩
  · rw [hend]
    exact List.map_congr_left fun p _ => (tickPeripheral_eq s.cyc p).1
  · rw [hend]
    exact List.map_congr_left fun p _ => (tickPeripheral_eq s.cyc p).2
  · rw [hend]; rfl
  · rw [hend]
    exact ⟨rfl, rfl, rfl, rfl, rfl, rfl, rfl, rfl, rfl⟩

end Sys2Proof.Machine
